-- ==== Sys2Proof/Word.lean ====
section
/-! DEFINITION. The word types of the RLC: bytes (R70), 6-bit radio addresses (R76) and the 32-bit
value of a host result (R71, R96). -/

namespace Sys2Proof

/-- R17, R70: a byte, unsigned, bit 0 least significant. -/
abbrev Byte := BitVec 8

/-- R76: a radio register address, 6 bits. -/
abbrev Addr := BitVec 6

/-- R71, R96: the 32-bit value field of a host result. -/
abbrev Word32 := BitVec 32

end Sys2Proof
end

