-- ==== Sys2Proof/Machine/Radio.lean ====
section
/-! DEFINITION. The radio core's encodings as the RLC uses them: parameters of rule R14, with the spec's
defaults (30_encoding R100 to R110). The spec gives every default from general knowledge (93 G2 to G8):
PRESUMED, unsafe, log 15. -/

namespace Sys2Proof.Machine

/-- R101: the strobes by name, `strobe37` for the unnamed one. -/
inductive Strobe where
  | sres
  | sfstxon
  | sxoff
  | scal
  | srx
  | stx
  | sidle
  | strobe37
  | swor
  | spwd
  | sfrx
  | sftx
  | sworrst
  | snop
  | snopRx
  deriving DecidableEq, Repr

/-- R101: the closed set of strobes. -/
def Strobe.all : List Strobe :=
  [.sres, .sfstxon, .sxoff, .scal, .srx, .stx, .sidle, .strobe37, .swor, .spwd, .sfrx, .sftx, .sworrst,
   .snop, .snopRx]

/-- R103: the strobes strictly between reset and no-op, by name (log 15). -/
def Strobe.isOperational : Strobe → Bool
  | .sres => false
  | .sfstxon => true
  | .sxoff => true
  | .scal => true
  | .srx => true
  | .stx => true
  | .sidle => true
  | .strobe37 => true
  | .swor => true
  | .spwd => true
  | .sfrx => true
  | .sftx => true
  | .sworrst => true
  | .snop => false
  | .snopRx => false

/-- R14, R101: a code for each strobe. -/
structure StrobeCodes where
  sres : Byte
  sfstxon : Byte
  sxoff : Byte
  scal : Byte
  srx : Byte
  stx : Byte
  sidle : Byte
  strobe37 : Byte
  swor : Byte
  spwd : Byte
  sfrx : Byte
  sftx : Byte
  sworrst : Byte
  snop : Byte
  snopRx : Byte
  deriving DecidableEq, Repr

/-- R14: the radio core's encodings. -/
structure Radio where
  /-- R101: the strobe codes -/
  strobes : StrobeCodes
  /-- R105: a single write's instruction byte at address 0 -/
  writeBase : Byte
  /-- R106: a burst write's -/
  burstWriteBase : Byte
  /-- R105: a configuration read's -/
  configReadBase : Byte
  /-- R105: a status read's -/
  statusReadBase : Byte
  /-- R106: a burst read's -/
  burstReadBase : Byte
  /-- R104: the last address of the configuration registers -/
  configLast : Addr
  /-- R104: the first status register -/
  statusFirst : Addr
  /-- R104: the last status register -/
  statusLast : Addr
  /-- R104: the power table's alias address -/
  paTableAddr : Addr
  /-- R104: the FIFO's address, TX on write and RX on read -/
  fifoAddr : Addr
  /-- R110 `AUX_CFG_ADDR` -/
  auxCfgAddr : Addr
  /-- R110 `CHIP_RDY_CFG` -/
  chipRdyCfg : Byte
  /-- R110 `RXBYTES_ADDR` -/
  rxBytesAddr : Addr
  /-- R14 `SLEEP_FAMILY` -/
  sleepFamily : List Strobe
  /-- R109: the lowest bit of the status byte's state field -/
  stateLow : Nat
  /-- R109: the width of that field -/
  stateWidth : Nat
  /-- R109: the field's code for Idle -/
  stateIdle : Nat
  deriving DecidableEq, Repr

/-- R101: the spec's strobe codes. -/
def StrobeCodes.spec : StrobeCodes where
  sres := 0x30
  sfstxon := 0x31
  sxoff := 0x32
  scal := 0x33
  srx := 0x34
  stx := 0x35
  sidle := 0x36
  strobe37 := 0x37
  swor := 0x38
  spwd := 0x39
  sfrx := 0x3A
  sftx := 0x3B
  sworrst := 0x3C
  snop := 0x3D
  snopRx := 0xBD

/-- R14, R100 to R110: the spec's defaults. PRESUMED, log 15. -/
def Radio.spec : Radio where
  strobes := StrobeCodes.spec
  writeBase := 0x00
  burstWriteBase := 0x40
  configReadBase := 0x80
  statusReadBase := 0xC0
  burstReadBase := 0xC0
  configLast := 0x2E
  statusFirst := 0x30
  statusLast := 0x3D
  paTableAddr := 0x3E
  fifoAddr := 0x3F
  auxCfgAddr := 0x00
  chipRdyCfg := 0x29
  rxBytesAddr := 0x3B
  sleepFamily := [.sxoff, .spwd, .swor]
  stateLow := 4
  stateWidth := 3
  stateIdle := 0

/-- R101: the code of a strobe. -/
def Radio.code (r : Radio) : Strobe → Byte
  | .sres => r.strobes.sres
  | .sfstxon => r.strobes.sfstxon
  | .sxoff => r.strobes.sxoff
  | .scal => r.strobes.scal
  | .srx => r.strobes.srx
  | .stx => r.strobes.stx
  | .sidle => r.strobes.sidle
  | .strobe37 => r.strobes.strobe37
  | .swor => r.strobes.swor
  | .spwd => r.strobes.spwd
  | .sfrx => r.strobes.sfrx
  | .sftx => r.strobes.sftx
  | .sworrst => r.strobes.sworrst
  | .snop => r.strobes.snop
  | .snopRx => r.strobes.snopRx

/-- R102, R145: the strobe that a code of the legal set stands for, the first of them if a radio gives two
one code. DESIGN CHOICE, log 15. -/
def Radio.strobeOf (r : Radio) (c : Byte) : Option Strobe := Strobe.all.find? fun k => r.code k == c

/-- R14 `SLEEP_FAMILY`: the strobe is exempt from the chip-ready wait. -/
def Radio.sleeps (r : Radio) (k : Strobe) : Bool := r.sleepFamily.contains k

/-- R104: the configuration range of register-read routing. The auxiliary register is a configuration
register wherever a radio has it (R110). DESIGN CHOICE, log 15. -/
def Radio.isConfigAddr (r : Radio) (a : Addr) : Bool :=
  a ≤ r.configLast || a == r.paTableAddr || a == r.auxCfgAddr

/-- R104: the status range, which holds no configuration register. DESIGN CHOICE, log 15. -/
def Radio.isStatusAddr (r : Radio) (a : Addr) : Bool :=
  r.statusFirst ≤ a && a ≤ r.statusLast && !r.isConfigAddr a

/-- R100: an instruction byte, the address in bits 5:0. -/
def instrByte (base : Byte) (a : Addr) : Byte := base ||| a.setWidth 8

/-- R105: single write. -/
def Radio.writeByte (r : Radio) (a : Addr) : Byte := instrByte r.writeBase a
/-- R106: burst write. -/
def Radio.burstWriteByte (r : Radio) (a : Addr) : Byte := instrByte r.burstWriteBase a
/-- R105: configuration read. -/
def Radio.configReadByte (r : Radio) (a : Addr) : Byte := instrByte r.configReadBase a
/-- R105: status read. -/
def Radio.statusReadByte (r : Radio) (a : Addr) : Byte := instrByte r.statusReadBase a
/-- R106: burst read. -/
def Radio.burstReadByte (r : Radio) (a : Addr) : Byte := instrByte r.burstReadBase a
/-- R125: a register read is a configuration read or a status read by the range of its address. -/
def Radio.readByte (r : Radio) (a : Addr) : Byte :=
  if r.isConfigAddr a then r.configReadByte a else r.statusReadByte a

/-- R109: the state field of a strobe's status byte. -/
def Radio.stateField (r : Radio) (st : Byte) : Nat := (st.extractLsb' r.stateLow r.stateWidth).toNat

/-- R109: the radio reports Idle. -/
def Radio.reportsIdle (r : Radio) (st : Byte) : Bool := r.stateField st == r.stateIdle

end Sys2Proof.Machine
end

