-- ==== Sys2Proof/Syntax.lean ====
section
/-! DEFINITION. The instructions: one constructor per row of spec/opcode_table.json, the host commands
(R92), the decoder's default (R93), the strobes (R101) and the bus instructions (R105 to R108). -/

namespace Sys2Proof

/-- Which of the two encoded interfaces an instruction belongs to (30_encoding sections 1 and 3). -/
inductive Port where
  | host
  | bus
  deriving DecidableEq, Repr

/-- The rows of the opcode table. -/
inductive Instr where
  -- host commands, R92
  | init
  | enterListen
  | exitListen
  | beginTx (ds : List Byte)
  | append (ds : List Byte)
  | sendNextFull
  | sendNextForce
  | waitIdlePoll
  | readStatus
  /-- R93: any other first byte. -/
  | illegalOpcode (op : Byte)
  -- strobes, R101
  | sres
  | sfstxon
  | sxoff
  | scal
  | srx
  | stx
  | sidle
  | strobe37
  | swor
  | spwd
  | sfrx
  | sftx
  | sworrst
  | snop
  | snopRx
  -- bus instructions, R105 to R108
  | regWriteSingle (a : Addr) (v : Byte)
  | regReadConfig (a : Addr)
  | regReadStatus (a : Addr)
  | burstWrite (a : Addr) (ds : List Byte)
  | burstRead (a : Addr) (n : Byte)
  | patableWriteSingle (v : Byte)
  | patableWriteBurst (ds : List Byte)
  | txfifoWriteBurst (ds : List Byte)
  | rxfifoReadBurst (n : Byte)
  deriving DecidableEq, Repr

/-- The port an instruction is given on. -/
def Instr.port : Instr → Port
  | .init => .host
  | .enterListen => .host
  | .exitListen => .host
  | .beginTx _ => .host
  | .append _ => .host
  | .sendNextFull => .host
  | .sendNextForce => .host
  | .waitIdlePoll => .host
  | .readStatus => .host
  | .illegalOpcode _ => .host
  | .sres => .bus
  | .sfstxon => .bus
  | .sxoff => .bus
  | .scal => .bus
  | .srx => .bus
  | .stx => .bus
  | .sidle => .bus
  | .strobe37 => .bus
  | .swor => .bus
  | .spwd => .bus
  | .sfrx => .bus
  | .sftx => .bus
  | .sworrst => .bus
  | .snop => .bus
  | .snopRx => .bus
  | .regWriteSingle _ _ => .bus
  | .regReadConfig _ => .bus
  | .regReadStatus _ => .bus
  | .burstWrite _ _ => .bus
  | .burstRead _ _ => .bus
  | .patableWriteSingle _ => .bus
  | .patableWriteBurst _ => .bus
  | .txfifoWriteBurst _ => .bus
  | .rxfifoReadBurst _ => .bus

end Sys2Proof
end

