-- ==== Sys2Proof/WellFormed.lean ====
section
/-! DEFINITION. The instructions that an encoding exists for: operand counts that fit their count byte
(R90) and addresses in the range of their form (R93, R104 to R108), the table's (log 5). -/

namespace Sys2Proof

open Machine

/-- R90: a byte string whose length fits the count byte. -/
def fitsCount (ds : List Byte) : Bool := ds.length ≤ 255

/-- R93: the opcodes that are none of the nine commands. -/
def isIllegalOpcode (op : Byte) : Bool := op == 0x00 || 0x0A ≤ op

/-- Each form's operands lie in the range its encoding admits. -/
def Instr.wf : Instr → Bool
  | .init => true
  | .enterListen => true
  | .exitListen => true
  | .beginTx ds => fitsCount ds
  | .append ds => fitsCount ds
  | .sendNextFull => true
  | .sendNextForce => true
  | .waitIdlePoll => true
  | .readStatus => true
  | .illegalOpcode op => isIllegalOpcode op
  | .sres => true
  | .sfstxon => true
  | .sxoff => true
  | .scal => true
  | .srx => true
  | .stx => true
  | .sidle => true
  | .strobe37 => true
  | .swor => true
  | .spwd => true
  | .sfrx => true
  | .sftx => true
  | .sworrst => true
  | .snop => true
  | .snopRx => true
  -- R104, R146: in the status range the byte is a strobe, at 0x3E it is the power table's row
  | .regWriteSingle a _ => !Radio.spec.isStatusAddr a && a != Radio.spec.paTableAddr
  -- R105
  | .regReadConfig a => Radio.spec.isConfigAddr a
  | .regReadStatus a => Radio.spec.isStatusAddr a
  -- R107, R108: the power table and the TX FIFO have rows of their own
  | .burstWrite a ds => a != Radio.spec.paTableAddr && a != Radio.spec.fifoAddr && fitsCount ds
  -- R106, R108: in the status range the byte is a status read, at 0x3F it is the RX FIFO's row
  | .burstRead a _ => !Radio.spec.isStatusAddr a && a != Radio.spec.fifoAddr
  | .patableWriteSingle _ => true
  | .patableWriteBurst ds => fitsCount ds
  | .txfifoWriteBurst ds => fitsCount ds
  | .rxfifoReadBurst _ => true

end Sys2Proof
end

