-- ==== Sys2Proof/Decode.lean ====
section
/-! DEFINITION. The decoders of the two ports, total on any bytes, and the encoder, from the tables of
30_encoding (R90 to R93, R101, R105 to R108, R113). A bus instruction's word is the table's, whatever the
radio's own encodings are (log 5). -/

namespace Sys2Proof

open Machine

/-- Why a byte string is no instruction. -/
inductive Reject where
  /-- R93: the string ends before the command does. -/
  | cutShort
  /-- R105, R108: a byte that no rule of the RLC issues on the bus (log 20). -/
  | notBusInstruction
  deriving DecidableEq, Repr

/-- A decoded instruction with the bytes after it, or the reason there is none. -/
inductive Decoded where
  | instr (i : Instr) (left : List Byte)
  | reject (r : Reject)
  deriving DecidableEq, Repr

/-- R92: the opcodes of format H0. -/
def h0Table : List (Byte × Instr) :=
  [(0x01, .init), (0x02, .enterListen), (0x03, .exitListen), (0x06, .sendNextFull),
   (0x07, .sendNextForce), (0x08, .waitIdlePoll), (0x09, .readStatus)]

/-- R92: BEGIN_TX, format HD. -/
def opBeginTx : Byte := 0x04
/-- R92: APPEND, format HD. -/
def opAppend : Byte := 0x05

/-- R101: the strobe codes. -/
def strobeTable : List (Byte × Instr) :=
  [(0x30, .sres), (0x31, .sfstxon), (0x32, .sxoff), (0x33, .scal), (0x34, .srx), (0x35, .stx),
   (0x36, .sidle), (0x37, .strobe37), (0x38, .swor), (0x39, .spwd), (0x3A, .sfrx), (0x3B, .sftx),
   (0x3C, .sworrst), (0x3D, .snop), (0xBD, .snopRx)]

/-- R90, R91: a count byte and then that many data bytes. -/
def takeCounted (f : List Byte → Instr) : List Byte → Decoded
  | [] => .reject .cutShort
  | n :: rest =>
    if n.toNat ≤ rest.length then .instr (f (rest.take n.toNat)) (rest.drop n.toNat)
    else .reject .cutShort

/-- One operand byte. -/
def takeByte (f : Byte → Instr) : List Byte → Decoded
  | [] => .reject .cutShort
  | v :: rest => .instr (f v) rest

/-- R113: decoding a host command. Total on any string that is not cut short. -/
def decodeHost : List Byte → Decoded
  | [] => .reject .cutShort
  | op :: rest =>
    match h0Table.lookup op with
    | some i => .instr i rest
    | none =>
      if op = opBeginTx then takeCounted .beginTx rest
      else if op = opAppend then takeCounted .append rest
      else .instr (.illegalOpcode op) rest

/-- R100: bits 5:0 of an instruction byte. -/
def addrOf (b : Byte) : Addr := b.extractLsb' 0 6
/-- R100: bit 7 of an instruction byte, 1 for a read. -/
def readBit (b : Byte) : Bool := b.getLsbD 7
/-- R100: bit 6 of an instruction byte, 1 for a burst. -/
def burstBit (b : Byte) : Bool := b.getLsbD 6

/-- R100, R104 to R108: decoding a dispatcher call: a strobe code alone, a single write with its byte,
a register read alone, a burst with its count byte and, for a write, its data (log 5). -/
def decodeBus : List Byte → Decoded
  | [] => .reject .cutShort
  | b :: rest =>
    match strobeTable.lookup b with
    | some i => .instr i rest
    | none =>
      let a := addrOf b
      match readBit b, burstBit b with
      | false, false =>
        if a = Radio.spec.paTableAddr then takeByte .patableWriteSingle rest
        else takeByte (.regWriteSingle a) rest
      | false, true =>
        if a = Radio.spec.paTableAddr then takeCounted .patableWriteBurst rest
        else if a = Radio.spec.fifoAddr then takeCounted .txfifoWriteBurst rest
        else takeCounted (.burstWrite a) rest
      | true, false =>
        if Radio.spec.isConfigAddr a then .instr (.regReadConfig a) rest else .reject .notBusInstruction
      | true, true =>
        if Radio.spec.isStatusAddr a then .instr (.regReadStatus a) rest
        else if a = Radio.spec.fifoAddr then takeByte .rxfifoReadBurst rest
        else takeByte (.burstRead a) rest

/-- The decoder of each port. -/
def decodePort : Port → List Byte → Decoded
  | .host, bs => decodeHost bs
  | .bus, bs => decodeBus bs

/-- R90: a count byte and the data. -/
def counted (ds : List Byte) : List Byte := BitVec.ofNat 8 ds.length :: ds

/-- The bytes of an instruction on its port. -/
def encode : Instr → List Byte
  | .init => [0x01]
  | .enterListen => [0x02]
  | .exitListen => [0x03]
  | .beginTx ds => opBeginTx :: counted ds
  | .append ds => opAppend :: counted ds
  | .sendNextFull => [0x06]
  | .sendNextForce => [0x07]
  | .waitIdlePoll => [0x08]
  | .readStatus => [0x09]
  | .illegalOpcode op => [op]
  | .sres => [0x30]
  | .sfstxon => [0x31]
  | .sxoff => [0x32]
  | .scal => [0x33]
  | .srx => [0x34]
  | .stx => [0x35]
  | .sidle => [0x36]
  | .strobe37 => [0x37]
  | .swor => [0x38]
  | .spwd => [0x39]
  | .sfrx => [0x3A]
  | .sftx => [0x3B]
  | .sworrst => [0x3C]
  | .snop => [0x3D]
  | .snopRx => [0xBD]
  | .regWriteSingle a v => [Radio.spec.writeByte a, v]
  | .regReadConfig a => [Radio.spec.configReadByte a]
  | .regReadStatus a => [Radio.spec.statusReadByte a]
  | .burstWrite a ds => Radio.spec.burstWriteByte a :: counted ds
  | .burstRead a n => [Radio.spec.burstReadByte a, n]
  | .patableWriteSingle v => [Radio.spec.writeByte Radio.spec.paTableAddr, v]
  | .patableWriteBurst ds => Radio.spec.burstWriteByte Radio.spec.paTableAddr :: counted ds
  | .txfifoWriteBurst ds => Radio.spec.burstWriteByte Radio.spec.fifoAddr :: counted ds
  | .rxfifoReadBurst n => [Radio.spec.burstReadByte Radio.spec.fifoAddr, n]

/-- R90, R113: the length of a host command, told from its opcode and, for HD, its count byte. -/
def hostLength : List Byte → Option Nat
  | [] => none
  | op :: rest =>
    if op = opBeginTx ∨ op = opAppend then rest.head?.map (fun n => 2 + n.toNat) else some 1

/-- The bytes of a table word: nbits/8 bytes of w, the first the least significant, then zeros, one
more than the second byte counts: no form reads more operand bytes than its count byte says. -/
def tableBytes (nbits w : Nat) : List Byte :=
  let given := (List.range ((nbits + 7) / 8)).map (fun k => BitVec.ofNat 8 (w >>> (8 * k)))
  given ++ List.replicate ((given.getD 1 0).toNat + 1) 0

/-- The table numbers both ports' bytes in one list: a byte that is one of the nine commands is a host
command, any other that is a bus instruction is one, the rest are illegal host opcodes (log 6). -/
def tablePort (bs : List Byte) : Port :=
  match decodeHost bs with
  | .instr (.illegalOpcode _) _ =>
    match decodeBus bs with
    | .instr _ _ => .bus
    | .reject _ => .host
  | _ => .host

/-- What the decoder reads from a table word. -/
def decodeTableWord (nbits w : Nat) : Option Instr :=
  let bs := tableBytes nbits w
  match decodePort (tablePort bs) bs with
  | .instr i _ => some i
  | .reject _ => none

/-- The bytes of the table word's instruction alone, for the port that takes it. -/
def tableItem (nbits w : Nat) : Port × List Byte :=
  let bs := tableBytes nbits w
  match decodePort (tablePort bs) bs with
  | .instr _ rest => (tablePort bs, bs.take (bs.length - rest.length))
  | .reject _ => (tablePort bs, bs)

end Sys2Proof
end

