-- ==== Sys2Proof/Config.lean ====
section
/-! DEFINITION. The parameters of rule R14, the well-formedness of rule R15,
and the free values: constants with no body that stand for what the environment answers (R12, U3, U4)
and for unspecified bytes (U1, U2). -/

namespace Sys2Proof.Config

/-- R14: the parameters. A model takes them as an argument; this model carries them in `State.cfg`,
which no step writes (R46, log 1). `SETTLE_DELAY` is timing only (log 17). -/
structure Params where
  /-- `TXQ_CAP` -/
  txqCap : Nat
  /-- `MAX_PAYLOAD` -/
  maxPayload : Nat
  /-- `TXFIFO_CAP` -/
  txFifoCap : Nat
  /-- `RX_CAP` -/
  rxCap : Nat
  /-- `CONFIG_TABLE`, (address, value) pairs in table order -/
  configTable : List (Addr × Byte)
  /-- `PA_TABLE` -/
  paTable : List Byte
  /-- `PATABLE_CAP` -/
  paTableCap : Nat
  /-- `BUS_WAIT_CAP`, `none` for `INF` -/
  busWaitCap : Option Nat
  /-- `WAIT_CAP` -/
  waitCap : Nat
  /-- `INIT_CLEARS_TXQ` -/
  initClearsTxq : Bool
  /-- `TERMINATOR` -/
  terminator : Byte
  /-- strobe codes, bus instruction bytes, register addresses, `AUX_CFG_ADDR`, `CHIP_RDY_CFG`,
  `RXBYTES_ADDR`, `SLEEP_FAMILY`, the status byte's state field -/
  radio : Machine.Radio
  deriving DecidableEq, Repr

/-- R15: the well-formed configurations. `TERMINATOR` is one byte by its type. -/
def Params.wf (c : Params) : Bool :=
  1 ≤ c.txqCap && c.txqCap ≤ c.maxPayload && c.maxPayload ≤ 255 && c.maxPayload + 1 ≤ c.txFifoCap &&
  4 ≤ c.rxCap && c.rxCap ≤ 255 && 1 ≤ c.paTable.length && c.paTable.length ≤ c.paTableCap &&
  1 ≤ c.waitCap && c.waitCap ≤ 255 && c.configTable.all (fun e => c.radio.isConfigAddr e.1)

/-- 95_test_vectors section 0: configuration CFG-A, which this model takes at reset, with R14's
`TERMINATOR` (log 19) and the default radio encodings (log 15). DESIGN CHOICE, log 1. -/
def cfgA : Params where
  txqCap := 8
  maxPayload := 16
  txFifoCap := 64
  rxCap := 16
  configTable := [(0x02, 0x06)]
  paTable := [0xC0]
  paTableCap := 8
  busWaitCap := none
  waitCap := 3
  initClearsTxq := false
  terminator := 0x0A
  radio := Machine.Radio.spec

/-- R12: the n-th strobe status byte past the listed answers. Free value, log 2. -/
opaque freeStatus : Nat → Byte
/-- R12: the n-th register or FIFO byte past the listed answers. Free value, log 2. -/
opaque freeData : Nat → Byte
/-- R12: the n-th chip-ready sample past the listed answers (true: asleep). Free value, log 2. -/
opaque freeAsleep : Nat → Bool
/-- R12, R121: the n-th poll count past the listed answers (`none`: NEVER). Free value, log 2. -/
opaque freePolls : Nat → Option Nat
/-- R12, R197: the n-th free capacity of the sink past the listed answers. Free value, log 2. -/
opaque freeRoom : Nat → Nat

/-- U1: what a byte of `TXQ` that nothing has written holds, by index. Free value, log 11. -/
opaque unspecTxq : Nat → Byte
/-- U2: what a byte of `RXBUF` that nothing has written holds, by index. Free value, log 11. -/
opaque unspecRxbuf : Nat → Byte

end Sys2Proof.Config
end

