-- ==== Sys2Proof/Machine/State.lean ====
section
/-! DEFINITION. The state of the RLC (10_state R32 to R51), what the environment still does (R10 to
R12), the reasons a step can stop, and the state after power-on reset. -/

namespace Sys2Proof.Machine

/-- R32: the four link states. -/
inductive LinkState where
  | idle
  | listening
  | transmitting
  | fault
  deriving DecidableEq, Repr

/-- R37, R242: the six fault causes. FAULT_CAUSE is `none` for NONE. Values 7 to 15 are never
written (U20) and have no constructor (log 21). -/
inductive FaultCause where
  | stateMismatch
  | shortFrame
  | crcFailure
  | frameOverflow
  | busTimeout
  | waitTimeout
  deriving DecidableEq, Repr

/-- R38: the outcomes of a receive-parser run. LAST_RX is `none` for NONE (log 21). -/
inductive RxOutcome where
  | ok
  | sinkOverflow
  | stateMismatch
  | shortFrame
  | crcFailure
  | frameOverflow
  | busTimeout
  deriving DecidableEq, Repr

/-- R96: the result codes. -/
inductive ResultCode where
  | ok
  | illegalState
  | queueFull
  | badLength
  | busTimeout
  | waitTimeout
  | notIdle
  | notInitialized
  | illegalOpcode
  deriving DecidableEq, Repr

/-- R96: the result of a host command. -/
structure Result where
  code : ResultCode
  value : Word32
  deriving DecidableEq, Repr

/-- R13: one entry of the sequence of host commands with their results. -/
structure Exchange where
  cmd : Instr
  result : Result
  deriving DecidableEq, Repr

/-- R120: the transactions of the bus trace. -/
inductive Transaction where
  | strobe (c s : Byte)
  | write (i : Byte) (ds : List Byte)
  | read (i : Byte) (ds : List Byte)
  | settle
  deriving DecidableEq, Repr

/-- R48, R197: one delivered frame. -/
structure Delivery where
  payload : List Byte
  rssi : Byte
  lqi : Byte
  deriving DecidableEq, Repr

/-- What a dispatcher call returns to its caller (R122 to R129, R145, R146): `ERR` is distinct from
every status byte. The model's own field, log 4. -/
inductive CallReturn where
  | none
  | status (s : Byte)
  | value (v : Byte)
  | bytes (bs : List Byte)
  | done
  | err
  | faulted (c : FaultCause)
  deriving DecidableEq, Repr

/-- One step of the schedule (R10, R11, log 3). -/
inductive Input where
  /-- The Host issues the command these bytes begin with (R90). -/
  | host (bytes : List Byte)
  /-- One bus instruction is run by the dispatcher alone, if it is laid open (R147, log 4, log 5). -/
  | call (bytes : List Byte)
  /-- The Handler takes its step if it has one (R250). -/
  | handler
  /-- The completion line falls (R248). -/
  | lineFall
  /-- The completion line rises (R248). -/
  | lineRise
  deriving DecidableEq, Repr

/-- One kind of draw (R12): the answers still listed, and how many have been taken. Past the list the
answer is a free value of the count (log 2). -/
structure Answers (α : Type) where
  listed : List α
  taken : Nat
  deriving DecidableEq, Repr

/-- A byte memory: (index, byte) cells, indices strictly rising. An unlisted index holds an
unspecified byte (U1, U2, log 11), which equals no listed cell. -/
abbrev Memory := List Host.Cell

/-- The canonical form of a memory: indices strictly rising. -/
abbrev Memory.wf (m : Memory) : Prop := (m.map Prod.fst).Pairwise (· < ·)

/-- The machine. The first block is the spec's state (R51), the second the model's own. -/
structure State where
  /-- `LINK_STATE`, R32 -/
  linkState : LinkState
  /-- `FAULT`, R36 -/
  fault : Bool
  /-- `FAULT_CAUSE`, R37 -/
  faultCause : Option FaultCause
  /-- `LAST_RX`, R38 -/
  lastRx : Option RxOutcome
  /-- `IRQ_EN`, R39 -/
  irqEn : Bool
  /-- `IRQ_PEND`, R40 -/
  irqPend : Bool
  /-- `WAIT_CNT`, R41 -/
  waitCnt : Byte
  /-- `INIT_DONE`, R42 -/
  initDone : Bool
  /-- `TXQ_COUNT`, R43 -/
  txqCount : Byte
  /-- `TXQ`, R43, R74 -/
  txq : Memory
  /-- `RXBUF`, R44, R75 -/
  rxbuf : Memory
  /-- the bus trace, R47, oldest first -/
  busTrace : List Transaction
  /-- the sink log, R48, oldest first -/
  sinkLog : List Delivery
  /-- R46: the configuration, the model's argument, log 1 -/
  cfg : Config.Params
  /-- R13: the host commands with their results, oldest first, log 16 -/
  hostLog : List Exchange
  /-- what the last dispatcher call returned, log 4 -/
  callReturn : CallReturn
  /-- R121, U6: the current transition never ends, log 7 -/
  hung : Bool
  /-- the dispatcher is laid open to call items; never in the RLC of the spec (R147), log 4 -/
  openBus : Bool
  /-- the schedule still to run, log 3 -/
  inputs : List Input
  /-- strobe status bytes, R12, log 2 -/
  statusAnswers : Answers Byte
  /-- register and FIFO bytes, R12, log 2 -/
  dataAnswers : Answers Byte
  /-- chip-ready samples, true for asleep, R12, R124, log 2 -/
  asleepAnswers : Answers Bool
  /-- poll counts of ready-flag waits, `none` for NEVER, R12, R121, log 2 -/
  pollAnswers : Answers (Option Nat)
  /-- free capacities of the sink, R12, R197, log 2 -/
  roomAnswers : Answers Nat
  deriving DecidableEq, Repr

/-- The reason a step can stop the machine. The RLC's own faults (R240) are next states, not these. -/
inductive Fault where
  /-- Raised by SEND_NEXT when TXQ_COUNT exceeds TXQ_CAP, so that it would read an index of TXQ that
  does not exist (R74). No state reached from reset has it (R50 b). Safe, log 12. -/
  | txqIndex
  deriving DecidableEq, Repr

/-- The reason a step gives no meaning. -/
inductive Refusal where
  /-- Raised by `exec` for an instruction with no meaning yet. No arm uses it. Safe. -/
  | notModelled (mnemonic : String)
  /-- Raised by `step` for bytes that end before their command does (R93, U10). Safe. -/
  | cutShort
  /-- Raised by `step` for a dispatcher call whose byte is no bus instruction of the RLC (R105, R108,
  log 20). Safe. -/
  | notBusInstruction
  /-- Raised by `step` for a dispatcher call when the dispatcher is not laid open: the host cannot issue a
  raw strobe or register access (R147, log 4). Safe. -/
  | rawBusAccess
  /-- Raised by `step` when the configuration is ill-formed (R15, U11). Safe. -/
  | illFormedConfig
  deriving DecidableEq, Repr

/-- The answers of one kind of draw with none listed. -/
def Answers.free {α : Type} : Answers α := { listed := [], taken := 0 }

/-- R51, R280: the state after power-on reset under a configuration. -/
def State.powerOn (c : Config.Params) : State where
  linkState := .idle
  fault := false
  faultCause := none
  lastRx := none
  irqEn := false
  irqPend := false
  waitCnt := 0
  initDone := false
  txqCount := 0
  txq := []
  rxbuf := []
  busTrace := []
  sinkLog := []
  cfg := c
  hostLog := []
  callReturn := .none
  hung := false
  openBus := false
  inputs := []
  statusAnswers := Answers.free
  dataAnswers := Answers.free
  asleepAnswers := Answers.free
  pollAnswers := Answers.free
  roomAnswers := Answers.free

/-- R280: power-on reset. The configuration is CFG-A (log 1). -/
def State.reset : State := State.powerOn Config.cfgA

end Sys2Proof.Machine
end

