-- ==== Sys2Proof/Machine/Ops.lean ====
section
/-! DEFINITION. The shared operations: draws (R12), byte memories (R19, R74, R75), the bus trace (R47),
the outcome of a micro-sequence (R21), ready-flag waits (R121), the fault action (R240), interrupt
entry (R250) and the end of a host command (R96, R241). -/

namespace Sys2Proof.Machine

/-! ### Draws (R12, log 2) -/

/-- The k-th answer still to come: the listed one, or the free value of its number. -/
def Answers.at {α : Type} (free : Nat → α) (a : Answers α) (k : Nat) : α :=
  (a.listed[k]?).getD (free (a.taken + k))

/-- The answers after n of them are taken. -/
def Answers.drop {α : Type} (a : Answers α) (n : Nat) : Answers α :=
  { listed := a.listed.drop n, taken := a.taken + n }

/-- The k-th strobe status byte still to come. -/
def State.statusDraw (s : State) (k : Nat) : Byte := s.statusAnswers.at Config.freeStatus k
/-- The k-th register or FIFO byte still to come. -/
def State.dataDraw (s : State) (k : Nat) : Byte := s.dataAnswers.at Config.freeData k
/-- The k-th chip-ready sample still to come, true for asleep. -/
def State.asleepDraw (s : State) (k : Nat) : Bool := s.asleepAnswers.at Config.freeAsleep k
/-- The k-th poll count still to come. -/
def State.pollDraw (s : State) (k : Nat) : Option Nat := s.pollAnswers.at Config.freePolls k
/-- The k-th free capacity of the sink still to come. -/
def State.roomDraw (s : State) (k : Nat) : Nat := s.roomAnswers.at Config.freeRoom k

/-- One strobe status byte is taken. -/
def State.tookStatus (s : State) : State := { s with statusAnswers := s.statusAnswers.drop 1 }
/-- One register or FIFO byte is taken. -/
def State.tookData (s : State) : State := { s with dataAnswers := s.dataAnswers.drop 1 }
/-- One chip-ready sample is taken. -/
def State.tookAsleep (s : State) : State := { s with asleepAnswers := s.asleepAnswers.drop 1 }
/-- One poll count is taken. -/
def State.tookPolls (s : State) : State := { s with pollAnswers := s.pollAnswers.drop 1 }
/-- One free capacity is taken. -/
def State.tookRoom (s : State) : State := { s with roomAnswers := s.roomAnswers.drop 1 }

/-! ### Byte memories (R19, log 11) -/

/-- The byte listed at an index, `none` where the byte is unspecified. -/
def memGet? (m : Memory) (k : Nat) : Option Byte := m.lookup k

/-- One byte written, the canonical form kept. -/
def memSet : Memory → Nat → Byte → Memory
  | [], k, b => [(k, b)]
  | c :: m, k, b =>
    if k < c.1 then (k, b) :: c :: m
    else if k = c.1 then (k, b) :: m
    else c :: memSet m k b

/-- R19 `MemWrite(M, k, n, bs)`, n the length of bs. -/
def memWrite (m : Memory) (k : Nat) : List Byte → Memory
  | [] => m
  | b :: bs => memWrite (memSet m k b) (k + 1) bs

/-- R19 `MemRead(M, k, n)`. An unspecified byte is the free value of its index. -/
def memRead (free : Nat → Byte) (m : Memory) (k : Nat) : Nat → List Byte
  | 0 => []
  | n + 1 => (memGet? m k).getD (free k) :: memRead free m (k + 1) n

/-- The bytes at index k and above become unspecified (R215). -/
def memForget (m : Memory) (k : Nat) : Memory := m.filter (fun c => c.1 < k)

/-! ### The bus trace and the outcome of a micro-sequence -/

/-- R47, R120: a transaction is appended to the bus trace. -/
def State.traced (s : State) (t : Transaction) : State := { s with busTrace := s.busTrace ++ [t] }

/-- R21: how a micro-sequence ends: it goes on with a value, it raises a fault (R148: everything that
called it ends at once), or it never ends (R121). Each carries the state reached. -/
inductive Flow (α : Type) where
  | ok (a : α) (s : State)
  | raised (c : FaultCause) (s : State)
  | hung (s : State)
  deriving DecidableEq, Repr

/-- One micro-sequence after another; a fault or a hang ends both (R148). -/
def Flow.andThen {α β : Type} (f : Flow α) (g : α → State → Flow β) : Flow β :=
  match f with
  | .ok a s => g a s
  | .raised c s => .raised c s
  | .hung s => .hung s

/-! ### Ready-flag waits (R121) -/

/-- R121: the ready flags. Their values are draws, not state (log 8). -/
inductive ReadyFlag where
  | instrRdy
  | doutRdy
  | dinRdy
  | statRdy
  | chipRdy
  deriving DecidableEq, Repr

/-- R121: a flag seen after `polls` polls lets the wait proceed under the cap (`none`: INF). -/
def pollPasses (cap polls : Option Nat) : Bool :=
  match polls, cap with
  | none, _ => false
  | some _, none => true
  | some k, some c => k ≤ c

/-- R121 `wait F`: proceed, raise BUS_TIMEOUT under a finite cap, or hang under INF. The draw is the
same whichever flag is waited for. -/
def waitFlag (_ : ReadyFlag) (s : State) : Flow Unit :=
  if pollPasses s.cfg.busWaitCap (s.pollDraw 0) then .ok () s.tookPolls
  else
    match s.cfg.busWaitCap with
    | some _ => .raised .busTimeout s.tookPolls
    | none => .hung s.tookPolls

/-! ### Faults and the interrupt -/

/-- R240: the fault action. -/
def faultAction (c : FaultCause) (s : State) : State :=
  { s with
    faultCause := if s.fault then s.faultCause else some c
    fault := true
    irqEn := false
    linkState := .fault }

/-- R199, R242: what the parser writes to LAST_RX before the fault action. WAIT_TIMEOUT is none of
the parser's causes. -/
def rxOutcomeOf : FaultCause → Option RxOutcome
  | .stateMismatch => some .stateMismatch
  | .shortFrame => some .shortFrame
  | .crcFailure => some .crcFailure
  | .frameOverflow => some .frameOverflow
  | .busTimeout => some .busTimeout
  | .waitTimeout => none

/-- R32: LINK_STATE is written. -/
def setLink (l : LinkState) (s : State) : State := { s with linkState := l }

/-- R152, R157: the completion interrupt is armed and any pending edge discarded. -/
def arm (s : State) : State := { s with irqEn := true, irqPend := false }

/-- R155, R170: the completion interrupt is disabled. -/
def disarm (s : State) : State := { s with irqEn := false }

/-- R41: WAIT_CNT is written. -/
def setWaitCnt (v : Byte) (s : State) : State := { s with waitCnt := v }

/-- R42: INIT has run to its end. -/
def setInitDone (s : State) : State := { s with initDone := true }

/-- R38: LAST_RX is written. -/
def setLastRx (o : RxOutcome) (s : State) : State := { s with lastRx := some o }

/-- R248: a falling edge of the completion line is latched. -/
def latchEdge (s : State) : State := { s with irqPend := true }

/-- R199: the parser's fault, LAST_RX first and then the fault action. -/
def parserFault (c : FaultCause) (s : State) : State :=
  match rxOutcomeOf c with
  | some o => faultAction c (setLastRx o s)
  | none => faultAction c s

/-- R250, R253: the handler has a step, the interrupt output. -/
def irqOut (s : State) : Bool := s.irqEn && s.irqPend

/-- R250: handler entry takes the latched edge; nothing is saved. -/
def handlerEntry (s : State) : State := { s with irqPend := false }

/-- R251, R171: the handler's end, the interrupt disabled; nothing is restored. -/
def handlerReturn (s : State) : State := disarm s

/-- R121, U6: the transition never ends (log 7). -/
def hang (s : State) : State := { s with hung := true }

/-! ### The end of a host command and of a dispatcher call -/

/-- R96: the host command returns its result. -/
def reply (cmd : Instr) (code : ResultCode) (value : Word32) (s : State) : State :=
  { s with hostLog := s.hostLog ++ [{ cmd := cmd, result := { code := code, value := value } }] }

/-- R241: the result code of a fault raised inside a host command; the parser's other causes have
none. -/
def resultOfCause : FaultCause → Option ResultCode
  | .stateMismatch => none
  | .shortFrame => none
  | .crcFailure => none
  | .frameOverflow => none
  | .busTimeout => some .busTimeout
  | .waitTimeout => some .waitTimeout

/-- R241: a fault inside a host command: the fault action, then the result the cause names. -/
def commandFault (cmd : Instr) (c : FaultCause) (s : State) : State :=
  match resultOfCause c with
  | some code => reply cmd code 0 (faultAction c s)
  | none => faultAction c s

/-- R21, R241: the end of a host command's micro-sequence. -/
def endCommand (cmd : Instr) (f : Flow Result) : State :=
  match f with
  | .ok r s => reply cmd r.code r.value s
  | .raised c s => commandFault cmd c s
  | .hung s => hang s

/-- The end of a dispatcher call run alone (log 4): its return, or the fault action. -/
def endCall (f : Flow CallReturn) : State :=
  match f with
  | .ok r s => { s with callReturn := r }
  | .raised c s => { faultAction c s with callReturn := .faulted c }
  | .hung s => hang s

/-- R149: the prologue of the commands that issue bus transactions. -/
def ifInitialized (cmd : Instr) (s : State) (body : State → Host.Outcome State Fault Refusal) :
    Host.Outcome State Fault Refusal :=
  if s.initDone then body s else .next (reply cmd .notInitialized 0 s)

end Sys2Proof.Machine
end

