-- ==== Sys2Proof/Machine/Operands.lean ====
section
/-! DEFINITION. The operand forms: the count and the data of an HD command (R91), sequences and
slices (R18), the transmitted frame (R112) and the slices of a received frame (R190, R196). -/

namespace Sys2Proof.Machine

/-- R18: the inclusive slice `xs[i..j]`, empty when j < i. -/
def slice (xs : List Byte) (i j : Nat) : List Byte := (xs.drop i).take (j + 1 - i)

/-- A byte of a sequence by index, R18 `xs[i]`; 0 past its end, where no rule reads. -/
def byteAt (xs : List Byte) (i : Nat) : Byte := xs.getD i 0

/-- R91: the count n of the data bytes. -/
def operandCount (ds : List Byte) : Nat := ds.length

/-- R156: the lengths BEGIN_TX takes, 1 to MAX_PAYLOAD. -/
def payloadFits (c : Config.Params) (ds : List Byte) : Bool :=
  1 ≤ operandCount ds && operandCount ds ≤ c.maxPayload

/-- R112, R157, R218: the transmitted frame, the payload count and the payload. -/
def txFrame (ds : List Byte) : List Byte := BitVec.ofNat 8 ds.length :: ds

/-- R196: the payload of a received frame of n bytes, `RXBUF[1 .. n-3]`. -/
def rxPayload (frame : List Byte) (n : Nat) : List Byte := slice frame 1 (n - 3)
/-- R196: the RSSI byte, `RXBUF[n-2]`. -/
def rxRssi (frame : List Byte) (n : Nat) : Byte := byteAt frame (n - 2)
/-- R190: the status byte, `RXBUF[n-1]`. -/
def rxStatus (frame : List Byte) (n : Nat) : Byte := byteAt frame (n - 1)
/-- R196: the link quality, the low seven bits of the status byte. -/
def rxLqi (frame : List Byte) (n : Nat) : Byte := rxStatus frame n &&& 0x7F
/-- R195: the CRC-ok bit, bit 7 of the status byte. -/
def rxCrcOk (frame : List Byte) (n : Nat) : Bool := (rxStatus frame n).getLsbD 7

/-- R210: APPEND would exceed the remaining capacity. -/
def queueLacks (s : State) (n : Nat) : Bool := s.cfg.txqCap < s.txqCount.toNat + n

/-- R74: TXQ_COUNT lies inside TXQ, so that no read of the valid bytes leaves it (log 12). -/
def countInQueue (s : State) : Bool := s.txqCount.toNat ≤ s.cfg.txqCap

end Sys2Proof.Machine
end

