-- ==== Sys2Proof/Machine/Flags.lean ====
section
/-! DEFINITION. The register codes (R32, R37, R38, R96), the derived flags (R34, R35), the status word
(R45) and the bytes of a result (R71, R96). -/

namespace Sys2Proof.Machine

/-- R32: the code of a link state. -/
def LinkState.code : LinkState → BitVec 2
  | .idle => 0
  | .listening => 1
  | .transmitting => 2
  | .fault => 3

/-- R37, R242: the code of a fault cause. -/
def FaultCause.code : FaultCause → BitVec 4
  | .stateMismatch => 1
  | .shortFrame => 2
  | .crcFailure => 3
  | .frameOverflow => 4
  | .busTimeout => 5
  | .waitTimeout => 6

/-- R37: the value of FAULT_CAUSE. -/
def faultCauseCode : Option FaultCause → BitVec 4
  | none => 0
  | some c => c.code

/-- R38: the code of a parser outcome. -/
def RxOutcome.code : RxOutcome → BitVec 4
  | .ok => 1
  | .sinkOverflow => 2
  | .stateMismatch => 3
  | .shortFrame => 4
  | .crcFailure => 5
  | .frameOverflow => 6
  | .busTimeout => 7

/-- R38: the value of LAST_RX. -/
def lastRxCode : Option RxOutcome → BitVec 4
  | none => 0
  | some o => o.code

/-- R96: the code byte of a result. -/
def ResultCode.code : ResultCode → Byte
  | .ok => 0
  | .illegalState => 1
  | .queueFull => 2
  | .badLength => 3
  | .busTimeout => 4
  | .waitTimeout => 5
  | .notIdle => 6
  | .notInitialized => 7
  | .illegalOpcode => 8

/-- R34: TX_FLAG. -/
def txFlag (s : State) : Bool := s.linkState == .transmitting

/-- R35: RX_FLAG. -/
def rxFlag (s : State) : Bool := s.linkState == .listening

/-- R45: the status word, its fields from bit 31 down. -/
def statusWord (s : State) : Word32 :=
  s.waitCnt ++ s.txqCount ++ lastRxCode s.lastRx ++ faultCauseCode s.faultCause ++
  BitVec.ofBool s.initDone ++ BitVec.ofBool (rxFlag s) ++ BitVec.ofBool (txFlag s) ++
  BitVec.ofBool s.irqPend ++ BitVec.ofBool s.irqEn ++ BitVec.ofBool s.fault ++ s.linkState.code

/-- R71, R96: the five bytes of a result, the value least significant first. -/
def Result.bytes (r : Result) : List Byte :=
  [r.code.code, r.value.extractLsb' 0 8, r.value.extractLsb' 8 8, r.value.extractLsb' 16 8,
   r.value.extractLsb' 24 8]

end Sys2Proof.Machine
end

