-- ==== Sys2Proof/Machine/Bus.lean ====
section
/-! DEFINITION. The strobe/register command dispatcher (40_bus_access): the bus primitives. -/

namespace Sys2Proof.Machine

/-- R125 `BusRegRead(a)`. -/
def busRegRead (a : Addr) (s : State) : Flow Byte :=
  (waitFlag .instrRdy s).andThen fun _ s =>
  (waitFlag .doutRdy s).andThen fun _ s =>
  .ok (s.dataDraw 0) (s.tookData.traced (.read (s.cfg.radio.readByte a) [s.dataDraw 0]))

/-- R126 `BusRegWrite(a, v)`: true for ok, false for ERR, which a status address gives (R146). -/
def busRegWrite (a : Addr) (v : Byte) (s : State) : Flow Bool :=
  if s.cfg.radio.isStatusAddr a then .ok false s
  else
    (waitFlag .instrRdy s).andThen fun _ s =>
    .ok true (s.traced (.write (s.cfg.radio.writeByte a) [v]))

/-- R127: n bytes of a burst read, each after its DOUT_RDY wait. The last is read on the path that
starts no further read (R294); the RLC sees the same wait and draw on both paths. -/
def burstBytes : Nat → State → Flow (List Byte)
  | 0, s => .ok [] s
  | n + 1, s =>
    (waitFlag .doutRdy s).andThen fun _ s =>
    (burstBytes n s.tookData).andThen fun bs t =>
    .ok (s.dataDraw 0 :: bs) t

/-- R127 `BusBurstRead(a, n)`; n = 0 is a no-op. -/
def busBurstRead (a : Addr) (n : Nat) (s : State) : Flow (List Byte) :=
  if n = 0 then .ok [] s
  else
    (waitFlag .instrRdy s).andThen fun _ s =>
    (burstBytes n s).andThen fun bs s =>
    .ok bs (s.traced (.read (s.cfg.radio.burstReadByte a) bs))

/-- R128: the DIN_RDY waits of the bytes after the first. -/
def burstWaits : Nat → State → Flow Unit
  | 0, s => .ok () s
  | n + 1, s => (waitFlag .dinRdy s).andThen fun _ s => burstWaits n s

/-- R128 `BusBurstWrite(a, ds)`; no bytes is a no-op. -/
def busBurstWrite (a : Addr) (ds : List Byte) (s : State) : Flow Unit :=
  if ds.length = 0 then .ok () s
  else
    (waitFlag .instrRdy s).andThen fun _ s =>
    (burstWaits (ds.length - 1) s).andThen fun _ s =>
    .ok () (s.traced (.write (s.cfg.radio.burstWriteByte a) ds))

/-- R120, R12: the strobe is issued, its status byte drawn and traced with its code. -/
def State.strobed (s : State) (k : Strobe) : State :=
  s.tookStatus.traced (.strobe (s.cfg.radio.code k) (s.statusDraw 0))

/-- R123 `PlainStrobe(c)`. -/
def plainStrobe (k : Strobe) (s : State) : Flow Byte := .ok (s.statusDraw 0) (s.strobed k)

/-- R124: the chip-ready wait and the settle delay, only if the chip was asleep and the strobe is not of
the sleep family. -/
def settleIfAsleep (k : Strobe) (asleep : Bool) (s : State) : Flow Unit :=
  if asleep && !s.cfg.radio.sleeps k then
    (waitFlag .chipRdy s).andThen fun _ s => .ok () (s.traced .settle)
  else .ok () s

/-- R124 `OperationalStrobe(c)`, the erratum sequence. The status byte is drawn where the trace entry
that holds it is made (log 9). -/
def operationalStrobe (k : Strobe) (s : State) : Flow Byte :=
  (busRegRead s.cfg.radio.auxCfgAddr s).andThen fun saved s =>
  (busRegWrite s.cfg.radio.auxCfgAddr s.cfg.radio.chipRdyCfg s).andThen fun _ s =>
  (settleIfAsleep k (s.asleepDraw 0) (s.strobed k).tookAsleep).andThen fun _ t =>
  (busRegWrite t.cfg.radio.auxCfgAddr saved t).andThen fun _ t =>
  (waitFlag .statRdy t).andThen fun _ t =>
  .ok (s.statusDraw 0) t

/-- R122 for a strobe of the legal set: the instruction-ready wait, then the operational or the plain path.
Clearing STAT_RDY leaves no state (log 8). -/
def legalStrobe (k : Strobe) (s : State) : Flow Byte :=
  (waitFlag .instrRdy s).andThen fun _ s =>
  if k.isOperational then operationalStrobe k s else plainStrobe k s

/-- R122 `BusStrobe(c)`: `none` is ERR, for a code outside the legal set (R145). The RLC's own rules
name strobes and call `legalStrobe`. -/
def busStrobe (c : Byte) (s : State) : Flow (Option Byte) :=
  match s.cfg.radio.strobeOf c with
  | some k => (legalStrobe k s).andThen fun st s => .ok (some st) s
  | none => .ok none s

/-- R129: the single form of the power-table write. -/
def paWriteSingle (v : Byte) (s : State) : Flow Unit :=
  (waitFlag .instrRdy s).andThen fun _ s => .ok () (s.traced (.write (s.cfg.radio.writeByte s.cfg.radio.paTableAddr) [v]))

/-- R129: the burst form of the power-table write. -/
def paWriteBurst (ds : List Byte) (s : State) : Flow Unit := busBurstWrite s.cfg.radio.paTableAddr ds s

/-- R129, R295: the no-op strobe that resets the radio's internal pointer. -/
def paPointerReset (s : State) : Flow Unit := (legalStrobe .snop s).andThen fun _ s => .ok () s

/-- R129 `BusPaWrite(ds)`: the single form for one byte, else the burst form, then the no-op. -/
def busPaWrite (ds : List Byte) (s : State) : Flow Unit :=
  (match ds with
    | [v] => paWriteSingle v s
    | _ => paWriteBurst ds s).andThen fun _ s => paPointerReset s

end Sys2Proof.Machine
end

