-- ==== Sys2Proof/Machine/Link.lean ====
section
/-! DEFINITION. The link state machine's commands (41_link_state_machine) and the sequences they
share. -/

namespace Sys2Proof.Machine

/-- The type of an instruction's meaning. -/
abbrev Outcome := Host.Outcome State Fault Refusal

/-! ### INIT (R150) -/

/-- R150: the driver-owned flags are reset, and the queue's count when INIT_CLEARS_TXQ. -/
def clearFlags (s : State) : State :=
  { s with
    linkState := .idle
    fault := false
    faultCause := none
    lastRx := none
    irqEn := false
    irqPend := false
    waitCnt := 0
    txqCount := if s.cfg.initClearsTxq then 0 else s.txqCount }

/-- R150: the configuration writes in table order. -/
def writeConfig : List (Addr × Byte) → State → Flow Unit
  | [], s => .ok () s
  | (a, v) :: rest, s => (busRegWrite a v s).andThen fun _ s => writeConfig rest s

/-- R150, R284: INIT's sequence. R76 says that INIT reaches `AUX_CFG_ADDR`: it does as `CONFIG_TABLE` lists
it, and not of its own accord, by R150's pseudocode (R89), R281, vector L4 and the callers that R125 and
R126 name. DEDUCED, log 26. -/
def initSequence (s : State) : Flow Result :=
  (legalStrobe .sres s).andThen fun _ s =>
  (legalStrobe .snop s).andThen fun _ s =>
  (writeConfig s.cfg.configTable (clearFlags s)).andThen fun _ s =>
  (busPaWrite s.cfg.paTable s).andThen fun _ s =>
  .ok { code := .ok, value := 0 } (setInitDone s)

/-- R150 INIT: legal in every state. -/
def execInit (s : State) : Outcome := .next (endCommand .init (initSequence s))

/-! ### Listening (R152 to R155) -/

/-- R152: ENTER_LISTEN's sequence. -/
def enterListening (s : State) : Flow Result :=
  (legalStrobe .srx (arm s)).andThen fun _ s =>
  .ok { code := .ok, value := 0 } (setLink .listening s)

/-- R152 ENTER_LISTEN: legal only from Idle. -/
def execEnterListen (s : State) : Outcome :=
  ifInitialized .enterListen s fun s =>
    if s.linkState = .idle then .next (endCommand .enterListen (enterListening s))
    else .next (reply .enterListen .illegalState 0 s)

/-- R155 `ExitListening()`. IRQ_PEND stays (R290). -/
def exitListening (s : State) : Flow Unit :=
  (legalStrobe .sidle (disarm s)).andThen fun _ s =>
  (legalStrobe .sfrx s).andThen fun _ s =>
  .ok () (setLink .idle s)

/-- R154 EXIT_LISTEN: legal only from Listening. -/
def execExitListen (s : State) : Outcome :=
  ifInitialized .exitListen s fun s =>
    if s.linkState = .listening then
      .next (endCommand .exitListen
        ((exitListening s).andThen fun _ s => .ok { code := .ok, value := 0 } s))
    else .next (reply .exitListen .illegalState 0 s)

/-! ### Transmitting (R156, R157) -/

/-- R157: Listening is left first, once (C5). -/
def leaveListening (s : State) : Flow Unit :=
  if s.linkState = .listening then exitListening s else .ok () s

/-- R157 `TxStart(ds)`. -/
def txStart (ds : List Byte) (s : State) : Flow Unit :=
  (leaveListening s).andThen fun _ s =>
  (busBurstWrite s.cfg.radio.fifoAddr (txFrame ds) (arm s)).andThen fun _ s =>
  (legalStrobe .stx s).andThen fun _ s =>
  .ok () (setLink .transmitting s)

/-- R156 BEGIN_TX: legal when not Transmitting, with 1 to MAX_PAYLOAD bytes. -/
def execBeginTx (ds : List Byte) (s : State) : Outcome :=
  ifInitialized (.beginTx ds) s fun s =>
    if s.linkState = .transmitting then .next (reply (.beginTx ds) .illegalState 0 s)
    else if payloadFits s.cfg ds then
      .next (endCommand (.beginTx ds)
        ((txStart ds s).andThen fun _ s => .ok { code := .ok, value := 0 } s))
    else .next (reply (.beginTx ds) .badLength 0 s)

/-! ### Waiting and status (R160, R162) -/

/-- R160: what the poll does with the radio's status byte. -/
def judgePoll (st : Byte) (s : State) : Flow Result :=
  if s.cfg.radio.reportsIdle st then .ok { code := .ok, value := st.setWidth 32 } (setWaitCnt 0 s)
  else if s.cfg.waitCap ≤ s.waitCnt.toNat + 1 then .raised .waitTimeout (setWaitCnt 0 s)
  else .ok { code := .notIdle, value := st.setWidth 32 } (setWaitCnt (s.waitCnt + 1) s)

/-- R160 WAIT_IDLE_POLL: legal in every state after INIT. -/
def execWaitIdlePoll (s : State) : Outcome :=
  ifInitialized .waitIdlePoll s fun s =>
    .next (endCommand .waitIdlePoll ((legalStrobe .snop s).andThen judgePoll))

/-- R162 READ_STATUS: legal in every state, no transaction. -/
def execReadStatus (s : State) : Outcome := .next (reply .readStatus .ok (statusWord s) s)

/-- R93: an illegal opcode writes no state and issues no transaction. -/
def execIllegalOpcode (op : Byte) (s : State) : Outcome :=
  .next (reply (.illegalOpcode op) .illegalOpcode 0 s)

end Sys2Proof.Machine
end

