-- ==== Sys2Proof/Machine/Queue.lean ====
section
/-! DEFINITION. The transmit message queue arbiter (43_transmit_queue). -/

namespace Sys2Proof.Machine

/-- The valid bytes of the queue, oldest first (R43). -/
def queueBytes (s : State) : List Byte := memRead Config.unspecTxq s.txq 0 s.txqCount.toNat

/-- R210: the bytes are written behind the valid ones. -/
def enqueue (ds : List Byte) (s : State) : State :=
  { s with
    txq := memWrite s.txq s.txqCount.toNat ds
    txqCount := s.txqCount + BitVec.ofNat 8 ds.length }

/-- R210 APPEND: all bytes or none, legal in every state. -/
def execAppend (ds : List Byte) (s : State) : Outcome :=
  if queueLacks s (operandCount ds) then .next (reply (.append ds) .queueFull 0 s)
  else .next (reply (.append ds) .ok 1 (enqueue ds s))

/-- R214 `Scan()`: the least index of the terminator among the valid bytes. -/
def scan (s : State) : Option Nat := (queueBytes s).findIdx? (· == s.cfg.terminator)

/-- R215 `Compact(k)`. The bytes behind the ones kept become unspecified (log 11). -/
def compact (k : Nat) (s : State) : State :=
  let rest := s.txqCount.toNat - k
  { s with
    txq := memForget (memWrite s.txq 0 (memRead Config.unspecTxq s.txq k rest)) rest
    txqCount := BitVec.ofNat 8 rest }

/-- R212, R213: the first len bytes leave the queue and are transmitted, in that order (R216). -/
def sendFirst (len : Nat) (s : State) : Flow Result :=
  (txStart (memRead Config.unspecTxq s.txq 0 len) (compact len s)).andThen fun _ s =>
  .ok { code := .ok, value := BitVec.ofNat 32 len } s

/-- R212, R213: nothing is sent while Transmitting or from an empty queue; else `pick` says how many
bytes are sent. A count outside TXQ stops the machine (log 12). -/
def sendNext (cmd : Instr) (pick : State → Option Nat) (s : State) : Outcome :=
  if s.linkState = .transmitting then .next (reply cmd .ok 0 s)
  else if s.txqCount = 0 then .next (reply cmd .ok 0 s)
  else if countInQueue s then
    match pick s with
    | none => .next (reply cmd .ok 0 s)
    | some len => .next (endCommand cmd (sendFirst len s))
  else .fault .txqIndex

/-- R212 SEND_NEXT.FULL: the bytes up to and including the first terminator. -/
def execSendNextFull (s : State) : Outcome :=
  ifInitialized .sendNextFull s (sendNext .sendNextFull fun s => (scan s).map (· + 1))

/-- R213 SEND_NEXT.FORCE: the whole queue. -/
def execSendNextForce (s : State) : Outcome :=
  ifInitialized .sendNextForce s (sendNext .sendNextForce fun s => some s.txqCount.toNat)

end Sys2Proof.Machine
end

