-- ==== Sys2Proof/Machine/Receive.lean ====
section
/-! DEFINITION. The receive FIFO frame parser (42_receive_drain) and the completion handler (R170 to
R172, R250, R251). -/

namespace Sys2Proof.Machine

/-- R194: the burst read's bytes go to RXBUF from index 0. -/
def storeFrame (bs : List Byte) (s : State) : State := { s with rxbuf := memWrite s.rxbuf 0 bs }

/-- R195, R196: the n bytes of the current run in RXBUF. -/
def rxFrame (s : State) (n : Nat) : List Byte := memRead Config.unspecRxbuf s.rxbuf 0 n

/-- R48: a frame is appended to the sink log. -/
def toSink (d : Delivery) (s : State) : State := { s with sinkLog := s.sinkLog ++ [d] }

/-- R197: delivered whole if the sink has room for the n - 3 payload bytes, else discarded, a soft
failure. -/
def deliver (n : Nat) (s : State) : State :=
  let f := rxFrame s n
  if s.roomDraw 0 < n - 3 then setLastRx .sinkOverflow s.tookRoom
  else
    setLastRx .ok (toSink { payload := rxPayload f n, rssi := rxRssi f n, lqi := rxLqi f n } s.tookRoom)

/-- R191 steps 4 to 6: the frame is read, its CRC bit checked, and the frame delivered. -/
def takeFrame (n : Nat) (s : State) : Flow Unit :=
  (busBurstRead s.cfg.radio.fifoAddr n s).andThen fun bs s =>
  let s := storeFrame bs s
  if rxCrcOk (rxFrame s n) n then .ok () (deliver n s) else .raised .crcFailure s

/-- R193: the count checks. -/
def checkCount (n : Nat) (s : State) : Flow Unit :=
  if n < 4 then .raised .shortFrame s
  else if s.cfg.rxCap < n then .raised .frameOverflow s
  else takeFrame n s

/-- R192: the state check. -/
def checkIdle (st : Byte) (s : State) : Flow Unit :=
  if s.cfg.radio.reportsIdle st then .ok () s else .raised .stateMismatch s

/-- R191 `RxDrain()`, its faults still to be acted on. -/
def rxDrain (s : State) : Flow Unit :=
  (legalStrobe .snop (setLink .idle s)).andThen fun st s =>
  (checkIdle st s).andThen fun _ s =>
  (busRegRead s.cfg.radio.rxBytesAddr s).andThen fun n s =>
  checkCount n.toNat s

/-- R171, R199: the drain's end: the interrupt disabled, or LAST_RX and the fault action. -/
def endDrain (f : Flow Unit) : State :=
  match f with
  | .ok _ s => handlerReturn s
  | .raised c s => parserFault c s
  | .hung s => hang s

/-- R170: the handler in Transmitting. -/
def handlerTransmitting (s : State) : State := setLink .idle (handlerReturn s)

/-- R171: the handler in Listening. -/
def handlerListening (s : State) : State := endDrain (rxDrain s)

/-- R250: the handler's step, entry and then the dispatch on LINK_STATE; R172 in Idle and Fault. -/
def handlerStep (s : State) : State :=
  match s.linkState with
  | .transmitting => handlerTransmitting (handlerEntry s)
  | .listening => handlerListening (handlerEntry s)
  | .idle => handlerReturn (handlerEntry s)
  | .fault => handlerReturn (handlerEntry s)

end Sys2Proof.Machine
end

