-- ==== Sys2Proof/Machine/Strobes.lean ====
section
/-! DEFINITION. The strobes as dispatcher calls run alone (R130 to R144, log 4). -/

namespace Sys2Proof.Machine

/-- R122: a strobe run alone returns its status byte. -/
def strobeCall (k : Strobe) (s : State) : Outcome :=
  .next (endCall ((legalStrobe k s).andThen fun st s => .ok (.status st) s))

/-- R130: SRES. -/
def execSres (s : State) : Outcome := strobeCall .sres s

/-- R131: SFSTXON. -/
def execSfstxon (s : State) : Outcome := strobeCall .sfstxon s

/-- R132: SXOFF. -/
def execSxoff (s : State) : Outcome := strobeCall .sxoff s

/-- R133: SCAL. -/
def execScal (s : State) : Outcome := strobeCall .scal s

/-- R134: SRX. -/
def execSrx (s : State) : Outcome := strobeCall .srx s

/-- R135: STX. -/
def execStx (s : State) : Outcome := strobeCall .stx s

/-- R136: SIDLE. -/
def execSidle (s : State) : Outcome := strobeCall .sidle s

/-- R137: code 0x37. -/
def execStrobe37 (s : State) : Outcome := strobeCall .strobe37 s

/-- R138: SWOR. -/
def execSwor (s : State) : Outcome := strobeCall .swor s

/-- R139: SPWD. -/
def execSpwd (s : State) : Outcome := strobeCall .spwd s

/-- R140: SFRX. -/
def execSfrx (s : State) : Outcome := strobeCall .sfrx s

/-- R141: SFTX. -/
def execSftx (s : State) : Outcome := strobeCall .sftx s

/-- R142: SWORRST. -/
def execSworrst (s : State) : Outcome := strobeCall .sworrst s

/-- R143: SNOP. -/
def execSnop (s : State) : Outcome := strobeCall .snop s

/-- R144: SNOP_RX. -/
def execSnopRx (s : State) : Outcome := strobeCall .snopRx s

end Sys2Proof.Machine
end

