-- ==== Sys2Proof/Machine/BusCalls.lean ====
section
/-! DEFINITION. The bus instructions as dispatcher calls run alone (R125 to R129, log 4). -/

namespace Sys2Proof.Machine

/-- R125: a register read returns its byte. -/
def readCall (a : Addr) (s : State) : Outcome :=
  .next (endCall ((busRegRead a s).andThen fun v s => .ok (.value v) s))

/-- R128, R129: a write returns when its bytes are out. -/
def writeCall (f : Flow Unit) : Outcome := .next (endCall (f.andThen fun _ s => .ok .done s))

/-- R127: a burst read returns its bytes. -/
def burstReadCall (a : Addr) (n : Byte) (s : State) : Outcome :=
  .next (endCall ((busBurstRead a n.toNat s).andThen fun bs s => .ok (.bytes bs) s))

/-- R126: the single register write; ERR in the status range (R146). -/
def execRegWriteSingle (a : Addr) (v : Byte) (s : State) : Outcome :=
  .next (endCall ((busRegWrite a v s).andThen fun ok s => .ok (if ok then .done else .err) s))

/-- R125: the configuration read. -/
def execRegReadConfig (a : Addr) (s : State) : Outcome := readCall a s

/-- R125: the status read. -/
def execRegReadStatus (a : Addr) (s : State) : Outcome := readCall a s

/-- R128: the burst write. -/
def execBurstWrite (a : Addr) (ds : List Byte) (s : State) : Outcome := writeCall (busBurstWrite a ds s)

/-- R127: the burst read. -/
def execBurstRead (a : Addr) (n : Byte) (s : State) : Outcome := burstReadCall a n s

/-- R129: the power-table write's single form, with its no-op. -/
def execPatableWriteSingle (v : Byte) (s : State) : Outcome := writeCall (busPaWrite [v] s)

/-- R129: the power-table write's burst form, with its no-op, for any number of bytes (log 20). -/
def execPatableWriteBurst (ds : List Byte) (s : State) : Outcome :=
  writeCall ((paWriteBurst ds s).andThen fun _ s => paPointerReset s)

/-- R128: the TX FIFO's burst write. -/
def execTxfifoWriteBurst (ds : List Byte) (s : State) : Outcome :=
  writeCall (busBurstWrite s.cfg.radio.fifoAddr ds s)

/-- R127: the RX FIFO's burst read. -/
def execRxfifoReadBurst (n : Byte) (s : State) : Outcome := burstReadCall s.cfg.radio.fifoAddr n s

end Sys2Proof.Machine
end

