-- ==== Sys2Proof/Machine/Agents.lean ====
section
/-! DEFINITION. The turns of the agents (R10, R11): what the schedule's next item does, and what the
machine does with none left (log 3). -/

namespace Sys2Proof.Machine

/-- R250: the Handler's turn; it has no step unless the interrupt output is 1. -/
def handlerTurn (s : State) : State := if irqOut s then handlerStep s else s

/-- The schedule without its first item. -/
def dropInput (s : State) : State := { s with inputs := s.inputs.tail }

/-- R113: the bytes behind the command stay on the port for the next one (log 13). -/
def consumeHost (left : List Byte) (s : State) : State :=
  { s with inputs := if left = [] then s.inputs.tail else .host left :: s.inputs.tail }

/-- The bytes behind a dispatcher call stay for the next one (log 13). -/
def consumeCall (left : List Byte) (s : State) : State :=
  { s with inputs := if left = [] then s.inputs.tail else .call left :: s.inputs.tail }

/-- R121, R297: after a hang only the Line still takes steps (log 7). -/
def hungTurn (s : State) : State :=
  match s.inputs with
  | .lineFall :: _ => latchEdge (dropInput s)
  | .lineRise :: _ => dropInput s
  | _ => s

/-- The refusal of bytes that are no instruction. -/
def refusalOf : Reject → Refusal
  | .cutShort => .cutShort
  | .notBusInstruction => .notBusInstruction

/-- The item that puts an instruction's bytes on its port. -/
def inputOf : Port × List Byte → Input
  | (.host, bs) => .host bs
  | (.bus, bs) => .call bs

end Sys2Proof.Machine
end

