-- ==== Sys2Proof/Machine/Dispatch.lean ====
section
/-! DEFINITION. One arm per instruction of the opcode table. -/

namespace Sys2Proof.Machine

def exec (i : Instr) (s : State) : Host.Outcome State Fault Refusal :=
  match i with
  | .init => Sys2Proof.Machine.execInit s
  | .enterListen => Sys2Proof.Machine.execEnterListen s
  | .exitListen => Sys2Proof.Machine.execExitListen s
  | .beginTx ds => Sys2Proof.Machine.execBeginTx ds s
  | .append ds => Sys2Proof.Machine.execAppend ds s
  | .sendNextFull => Sys2Proof.Machine.execSendNextFull s
  | .sendNextForce => Sys2Proof.Machine.execSendNextForce s
  | .waitIdlePoll => Sys2Proof.Machine.execWaitIdlePoll s
  | .readStatus => Sys2Proof.Machine.execReadStatus s
  | .illegalOpcode op => Sys2Proof.Machine.execIllegalOpcode op s
  | .sres => Sys2Proof.Machine.execSres s
  | .sfstxon => Sys2Proof.Machine.execSfstxon s
  | .sxoff => Sys2Proof.Machine.execSxoff s
  | .scal => Sys2Proof.Machine.execScal s
  | .srx => Sys2Proof.Machine.execSrx s
  | .stx => Sys2Proof.Machine.execStx s
  | .sidle => Sys2Proof.Machine.execSidle s
  | .strobe37 => Sys2Proof.Machine.execStrobe37 s
  | .swor => Sys2Proof.Machine.execSwor s
  | .spwd => Sys2Proof.Machine.execSpwd s
  | .sfrx => Sys2Proof.Machine.execSfrx s
  | .sftx => Sys2Proof.Machine.execSftx s
  | .sworrst => Sys2Proof.Machine.execSworrst s
  | .snop => Sys2Proof.Machine.execSnop s
  | .snopRx => Sys2Proof.Machine.execSnopRx s
  | .regWriteSingle a v => Sys2Proof.Machine.execRegWriteSingle a v s
  | .regReadConfig a => Sys2Proof.Machine.execRegReadConfig a s
  | .regReadStatus a => Sys2Proof.Machine.execRegReadStatus a s
  | .burstWrite a ds => Sys2Proof.Machine.execBurstWrite a ds s
  | .burstRead a n => Sys2Proof.Machine.execBurstRead a n s
  | .patableWriteSingle v => Sys2Proof.Machine.execPatableWriteSingle v s
  | .patableWriteBurst ds => Sys2Proof.Machine.execPatableWriteBurst ds s
  | .txfifoWriteBurst ds => Sys2Proof.Machine.execTxfifoWriteBurst ds s
  | .rxfifoReadBurst n => Sys2Proof.Machine.execRxfifoReadBurst n s

end Sys2Proof.Machine
end

