-- ==== Sys2Proof/Machine/Step.lean ====
section
/-! DEFINITION. One step: the next item of the schedule, or, with none left, the Handler if it has a
step and else a wait (R10, R11, R82, R83, log 3). An ill-formed configuration has no meaning (R15), and a
bus instruction comes from the RLC's own rules alone unless the dispatcher is laid open (R147, log 4). -/

namespace Sys2Proof.Machine

def step (s : State) : Host.Outcome State Fault Refusal :=
  if s.cfg.wf then
    if s.hung then .next (hungTurn s)
    else
      match s.inputs with
      | [] => .next (handlerTurn s)
      | .handler :: _ => .next (handlerTurn (dropInput s))
      | .lineFall :: _ => .next (latchEdge (dropInput s))
      | .lineRise :: _ => .next (dropInput s)
      | .host bytes :: _ =>
        match decodeHost bytes with
        | .instr i left => exec i (consumeHost left s)
        | .reject r => .refused (refusalOf r)
      | .call bytes :: _ =>
        if s.openBus then
          match decodeBus bytes with
          | .instr i left => exec i (consumeCall left s)
          | .reject r => .refused (refusalOf r)
        else .refused .rawBusAccess
  else .refused .illFormedConfig

/-- The instruction of a table word, given next on its port (log 3, log 6); the dispatcher is laid open for
a bus instruction (log 4). -/
def State.withFetchWord (s : State) (nbits w : Nat) : State :=
  let item := tableItem nbits w
  { s with inputs := inputOf item :: s.inputs, openBus := s.openBus || item.1 == .bus }

end Sys2Proof.Machine
end

