-- ==== Sys2Proof/Safety.lean ====
section
/-! DEFINITION. The terms of the statements: ready flags that come in time, the transactions a strobe
leaves, what a bus primitive may change, and the invariants of rule R50. -/

namespace Sys2Proof.Machine

/-- The next n ready-flag waits proceed (R121). -/
abbrev State.pollsPass (s : State) (n : Nat) : Prop :=
  ∀ k < n, pollPasses s.cfg.busWaitCap (s.pollDraw k) = true

/-- R124: the settle event is traced: the chip was asleep and the strobe is none of SLEEP_FAMILY. -/
def State.settles (s : State) (k : Strobe) (n : Nat) : Bool :=
  s.asleepDraw n && !(k ∈ s.cfg.radio.sleepFamily)

/-- R124: the transactions of an operational strobe, with the n-th draws still to come: the auxiliary
configuration read, redirected and restored around the strobe. -/
def State.opTraceAt (s : State) (k : Strobe) (n : Nat) : List Transaction :=
  let r := s.cfg.radio
  [.read (r.readByte r.auxCfgAddr) [s.dataDraw n], .write (r.writeByte r.auxCfgAddr) [r.chipRdyCfg],
    .strobe (r.code k) (s.statusDraw n)] ++
  (if s.settles k n then [.settle] else []) ++ [.write (r.writeByte r.auxCfgAddr) [s.dataDraw n]]

/-- The state after bus activity: transactions appended to the trace (R47), and that many strobe status
bytes, register or FIFO bytes, chip-ready samples and poll counts taken (R12). Every register, memory,
log and input is as before. -/
def State.busAfter (s : State) (new : List Transaction) (status data asleep polls : Nat) : State :=
  { s with
    busTrace := s.busTrace ++ new
    statusAnswers := s.statusAnswers.drop status
    dataAnswers := s.dataAnswers.drop data
    asleepAnswers := s.asleepAnswers.drop asleep
    pollAnswers := s.pollAnswers.drop polls }

/-- R120 to R129: what a bus primitive may change. -/
def BusOnly (s t : State) : Prop :=
  ∃ new status data asleep polls, t = s.busAfter new status data asleep polls

/-- R157: how many operational strobes a transmission start issues. -/
def State.txStrobes (s : State) : Nat := if s.linkState = .listening then 3 else 1

/-- R155, R157: the transactions of a transmission start: from Listening idle and flush-RX first, then
the frame into the TX FIFO and enter-TX. -/
def State.txTrace (s : State) (ds : List Byte) : List Transaction :=
  (if s.linkState = .listening then s.opTraceAt .sidle 0 ++ s.opTraceAt .sfrx 1 else []) ++
  [.write (s.cfg.radio.burstWriteByte s.cfg.radio.fifoAddr) (BitVec.ofNat 8 ds.length :: ds)] ++
  s.opTraceAt .stx (s.txStrobes - 1)

/-- R123: a plain strobe's transaction, with the n-th status byte still to come. -/
def State.plainTrace (s : State) (k : Strobe) (n : Nat) : Transaction :=
  .strobe (s.cfg.radio.code k) (s.statusDraw n)

/-- R155, R157: what a transmission start writes before its first wait: from Listening the interrupt is
disabled, else it is armed and a pending edge discarded. -/
def State.atTxStart (s : State) : State :=
  if s.linkState = .listening then { s with irqEn := false }
  else { s with irqEn := true, irqPend := false }

/-- R150: the configuration writes in table order. -/
def configTrace (r : Radio) (tbl : List (Addr × Byte)) : List Transaction :=
  tbl.map fun e => .write (r.writeByte e.1) [e.2]

/-- R129: the power-table write, in its single form for one byte and its burst form otherwise. -/
def paTrace (r : Radio) (ds : List Byte) : List Transaction :=
  if ds.length = 1 then [.write (r.writeByte r.paTableAddr) ds]
  else [.write (r.burstWriteByte r.paTableAddr) ds]

/-- R109: the radio's Idle code stands in the status byte's state field. -/
abbrev State.seesIdle (s : State) (st : Byte) : Prop :=
  (st.extractLsb' s.cfg.radio.stateLow s.cfg.radio.stateWidth).toNat = s.cfg.radio.stateIdle

/-- R192, R193: the parser's first two transactions, the no-op strobe and the count's read. -/
def State.parserTrace (s : State) : List Transaction :=
  [s.plainTrace .snop 0, .read (s.cfg.radio.readByte s.cfg.radio.rxBytesAddr) [s.dataDraw 0]]

/-- R12: the next n register or FIFO bytes from the k-th on. -/
def State.dataBytes (s : State) (k n : Nat) : List Byte := (List.range n).map fun i => s.dataDraw (k + i)

/-- R50 and the memories' form. Clause (a) is a fact about states between transitions, so it is not
claimed of a hung one (log 7). -/
structure State.Inv (s : State) : Prop where
  /-- R50 (a) -/
  armed : s.hung = false → s.irqEn = true → s.linkState = .listening ∨ s.linkState = .transmitting
  /-- R50 (b) -/
  countFits : s.txqCount.toNat ≤ s.cfg.txqCap
  /-- R50 (c) -/
  causeNone : s.fault = false ↔ s.faultCause = none
  /-- R50 (d) -/
  faultState : s.linkState = .fault → s.fault = true
  /-- R50 (e) -/
  pollsFit : s.waitCnt.toNat ≤ s.cfg.waitCap
  /-- R74: TXQ's canonical form and extent -/
  txqForm : Memory.wf s.txq
  txqExtent : ∀ c ∈ s.txq, c.1 < s.cfg.txqCap
  /-- R43, R51: a valid byte of the queue has been written -/
  txqWritten : ∀ k < s.txqCount.toNat, (memGet? s.txq k).isSome = true
  /-- R75: RXBUF's canonical form and extent -/
  rxbufForm : Memory.wf s.rxbuf
  rxbufExtent : ∀ c ∈ s.rxbuf, c.1 < s.cfg.rxCap

/-- The step runs this host command: it is what the schedule's next item decodes to (R90, R113). -/
def State.runsHost (s : State) (i : Instr) : Prop :=
  ∃ bytes rest left, s.inputs = .host bytes :: rest ∧ decodeHost bytes = .instr i left

end Sys2Proof.Machine
end

