-- ==== Sys2Proof/Certificates/Slice0/Obligations.lean ====
section
/-! DEFINITION. The statements for the provers, from the numbered rules of spec/. The witness of each
statement's hypotheses is the theorem of the same name with `witness_` before it in
Sys2Proof/Tests/Slice0.lean. -/

open Sys2Proof Sys2Proof.Machine

/-! ### Reset and encodings -/

/-- R51, for every configuration. The unspecified bytes of TXQ and RXBUF are unlisted ones (log 11); reset
has R14's TERMINATOR and the spec's default radio encodings (logs 15, 19). -/
def Obligations.PowerOnLeavesEveryRegisterAtItsResetValue : Prop :=
  State.reset = State.powerOn State.reset.cfg ∧
  State.reset.cfg.terminator = 0x0A ∧ State.reset.cfg.radio = Radio.spec ∧
  ∀ c : Config.Params, let s := State.powerOn c
    s.linkState = .idle ∧ s.fault = false ∧ s.faultCause = none ∧ s.lastRx = none ∧ s.irqEn = false ∧
    s.irqPend = false ∧ s.waitCnt = 0 ∧ s.initDone = false ∧ s.txqCount = 0 ∧ s.busTrace = [] ∧
    s.sinkLog = [] ∧ (∀ k, memGet? s.txq k = none ∧ memGet? s.rxbuf k = none) ∧
    txFlag s = false ∧ rxFlag s = false ∧ statusWord s = 0x00000000

/-- R92, R93, R101, R105 to R108: words written out from the spec's tables decode to their rows; and
R100 to R110, R14: the numbers of the default radio encodings. -/
def Obligations.SpecWordsDecodeAndTheDefaultRadioHasTheSpecsNumbers : Prop :=
  (decodeHost [0x01] = .instr .init [] ∧
  decodeHost [0x04, 0x02, 0x48, 0x49] = .instr (.beginTx [0x48, 0x49]) [] ∧
  decodeHost [0x05, 0x03, 0x41, 0x42, 0x0A] = .instr (.append [0x41, 0x42, 0x0A]) [] ∧
  decodeHost [0xFF] = .instr (.illegalOpcode 0xFF) [] ∧
  decodeHost [0x04, 0x03, 0x41, 0x42] = .reject .cutShort ∧
  decodeBus [0x34] = .instr .srx [] ∧
  decodeBus [0xBD] = .instr .snopRx [] ∧
  decodeBus [0x02, 0x06] = .instr (.regWriteSingle 0x02 0x06) [] ∧
  decodeBus [0x80] = .instr (.regReadConfig 0x00) [] ∧
  decodeBus [0xFB] = .instr (.regReadStatus 0x3B) [] ∧
  decodeBus [0x3E, 0xC0] = .instr (.patableWriteSingle 0xC0) [] ∧
  decodeBus [0xFF, 0x04] = .instr (.rxfifoReadBurst 0x04) []) ∧
  Strobe.all.map Radio.spec.code = [0x30, 0x31, 0x32, 0x33, 0x34, 0x35, 0x36, 0x37, 0x38, 0x39, 0x3A, 0x3B,
    0x3C, 0x3D, 0xBD] ∧
  (∀ a : Addr, Radio.spec.writeByte a = a.setWidth 8 ∧ Radio.spec.burstWriteByte a = 0x40 ||| a.setWidth 8 ∧
    Radio.spec.configReadByte a = 0x80 ||| a.setWidth 8 ∧
    Radio.spec.statusReadByte a = 0xC0 ||| a.setWidth 8 ∧
    Radio.spec.burstReadByte a = 0xC0 ||| a.setWidth 8 ∧
    (Radio.spec.isConfigAddr a = true ↔ a ≤ 0x2E ∨ a = 0x3E) ∧
    (Radio.spec.isStatusAddr a = true ↔ 0x30 ≤ a ∧ a ≤ 0x3D)) ∧
  Radio.spec.paTableAddr = 0x3E ∧ Radio.spec.fifoAddr = 0x3F ∧ Radio.spec.auxCfgAddr = 0x00 ∧
  Radio.spec.chipRdyCfg = 0x29 ∧ Radio.spec.rxBytesAddr = 0x3B ∧
  (∀ k, k ∈ Radio.spec.sleepFamily ↔ k = .sxoff ∨ k = .spwd ∨ k = .swor) ∧
  ∀ st : Byte, Radio.spec.reportsIdle st = true ↔ st.extractLsb' 4 3 = 0

/-- R90, R91, R113 and R100 to R108: decoding an encoded well-formed instruction gives it back, with
every operand value and whatever bytes follow. -/
def Obligations.DecodeOfEncodeIsTheInstruction : Prop :=
  ∀ (i : Instr) (rest : List Byte), i.wf = true → decodePort i.port (encode i ++ rest) = .instr i rest

/-- The other direction: what a decoder reads is well-formed, of its port, and has the bytes read as
its encoding, so no two encodings share an instruction. -/
def Obligations.EncodeOfDecodeIsTheBytes : Prop :=
  ∀ (p : Port) (bs : List Byte) (i : Instr) (rest : List Byte), decodePort p bs = .instr i rest →
    i.wf = true ∧ i.port = p ∧ encode i ++ rest = bs

/-- R113: a host command's length is told by its opcode and count; the decoder is total on strings that
are not cut short, and refuses those that are (R93). -/
def Obligations.HostDecoderIsTotalOnWholeCommands : Prop :=
  ∀ bs : List Byte,
    (∀ n, hostLength bs = some n → n ≤ bs.length → ∃ i, decodeHost bs = .instr i (bs.drop n)) ∧
    ((hostLength bs = none ∨ ∃ n, hostLength bs = some n ∧ bs.length < n) →
      decodeHost bs = .reject .cutShort)

/-! ### The step -/

/-- A step runs the decoded instruction: when the schedule's next item gives a port bytes that decode to
i, step is exec of i with that item consumed and the bytes behind it left on the port (log 3, 13). A bus
instruction of its own comes only to a dispatcher laid open; otherwise it is refused (R147, log 4). -/
def Obligations.StepRunsTheDecodedInstruction : Prop :=
  ∀ (s : State) (bytes left : List Byte) (rest : List Input) (i : Instr),
    s.cfg.wf = true → s.hung = false →
    (s.inputs = .host bytes :: rest → decodeHost bytes = .instr i left →
      step s = exec i { s with inputs := if left = [] then rest else .host left :: rest }) ∧
    (s.openBus = true → s.inputs = .call bytes :: rest → decodeBus bytes = .instr i left →
      step s = exec i { s with inputs := if left = [] then rest else .call left :: rest }) ∧
    (s.openBus = false → s.inputs = .call bytes :: rest → step s = .refused .rawBusAccess)

/-- R15: the conditions of a well-formed configuration, and that an ill-formed one has no meaning: every
step refuses it. TERMINATOR is one byte by its type. That AUX_CFG_ADDR counts as a configuration
address on every radio is the model's choice (log 15); in the spec's encodings the range is R104's. -/
def Obligations.IllFormedConfigurationIsRefused : Prop :=
  (∀ c : Config.Params, c.wf = true ↔
    (1 ≤ c.txqCap ∧ c.txqCap ≤ c.maxPayload ∧ c.maxPayload ≤ 255) ∧ c.maxPayload + 1 ≤ c.txFifoCap ∧
    (4 ≤ c.rxCap ∧ c.rxCap ≤ 255) ∧ (1 ≤ c.paTable.length ∧ c.paTable.length ≤ c.paTableCap) ∧
    (1 ≤ c.waitCap ∧ c.waitCap ≤ 255) ∧ ∀ e ∈ c.configTable, c.radio.isConfigAddr e.1 = true) ∧
  (∀ a : Addr, Radio.spec.isConfigAddr a = true ↔ a ≤ 0x2E ∨ a = 0x3E) ∧
  ∀ s : State, s.cfg.wf = false → step s = .refused .illFormedConfig

/-- R248: a falling edge sets IRQ_PEND whatever IRQ_EN holds, a rising edge does nothing; only the
schedule moves on beside that. -/
def Obligations.LineEdgeLatchesIrqPend : Prop :=
  ∀ (s : State) (rest : List Input), s.cfg.wf = true →
    (s.inputs = .lineFall :: rest → step s = .next { s with inputs := rest, irqPend := true }) ∧
    (s.inputs = .lineRise :: rest → step s = .next { s with inputs := rest })

/-- R250: the handler steps exactly when IRQ_EN = 1 and IRQ_PEND = 1. With the schedule at the handler,
or with nothing left in it (log 3), the step is the handler's, else nothing but the schedule moves. -/
def Obligations.HandlerStepsExactlyWhenEnabledAndPending : Prop :=
  ∀ (s : State) (rest : List Input), s.cfg.wf = true → s.hung = false →
    (s.inputs = .handler :: rest →
      step s = .next (if s.irqEn ∧ s.irqPend then handlerStep { s with inputs := rest }
        else { s with inputs := rest })) ∧
    (s.inputs = [] → step s = .next (if s.irqEn ∧ s.irqPend then handlerStep s else s))

/-- R121, R297, U6: a hung transition never ends (log 7): with a falling edge next, its item goes and
IRQ_PEND is set; with a rising edge next, its item goes; otherwise nothing changes, whatever the Host or
the Handler would do. -/
def Obligations.HungMachineNeverResumes : Prop :=
  ∀ s : State, s.cfg.wf = true → s.hung = true →
    (∀ rest, s.inputs = .lineFall :: rest → step s = .next { s with inputs := rest, irqPend := true }) ∧
    (∀ rest, s.inputs = .lineRise :: rest → step s = .next { s with inputs := rest }) ∧
    ((∀ rest, s.inputs ≠ .lineFall :: rest) → (∀ rest, s.inputs ≠ .lineRise :: rest) → step s = .next s)

/-! ### Bus instructions -/

/-- R123, R130, R143, R144: SRES, SNOP and SNOP_RX run alone: one STROBE, its status byte returned. -/
def Obligations.PlainStrobesIssueOneTransaction : Prop :=
  ∀ p ∈ [(Instr.sres, Strobe.sres), (.snop, .snop), (.snopRx, .snopRx)], ∀ s : State, s.pollsPass 1 →
    exec p.1 s = .next { s.busAfter [.strobe (s.cfg.radio.code p.2) (s.statusDraw 0)] 1 0 0 1 with
      callReturn := .status (s.statusDraw 0) }

/-- R124, R131 to R142: the twelve operational strobes run alone leave the erratum sequence: the
auxiliary configuration saved, redirected, the strobe, the settle event only if asleep and not of the
sleep family, the configuration restored; the status byte is returned. That these twelve are the
operational ones by name, on every radio, is the model's choice (log 15). -/
def Obligations.OperationalStrobesRunTheErratumSequence : Prop :=
  ∀ p ∈ [(Instr.sfstxon, Strobe.sfstxon), (.sxoff, .sxoff), (.scal, .scal), (.srx, .srx), (.stx, .stx),
      (.sidle, .sidle), (.strobe37, .strobe37), (.swor, .swor), (.spwd, .spwd), (.sfrx, .sfrx),
      (.sftx, .sftx), (.sworrst, .sworrst)],
    ∀ s : State, s.pollsPass 7 → let r := s.cfg.radio
      exec p.1 s = .next { s.busAfter
          ([.read (r.configReadByte r.auxCfgAddr) [s.dataDraw 0], .write (r.writeByte r.auxCfgAddr) [r.chipRdyCfg],
              .strobe (r.code p.2) (s.statusDraw 0)] ++
            (if s.asleepDraw 0 = true ∧ p.2 ∉ r.sleepFamily then [.settle] else []) ++
            [.write (r.writeByte r.auxCfgAddr) [s.dataDraw 0]])
          1 1 1 (if s.asleepDraw 0 = true ∧ p.2 ∉ r.sleepFamily then 7 else 6) with
        callReturn := .status (s.statusDraw 0) }

/-- R145: a code outside the legal set gives ERR, no transaction, no wait, no state written; a legal
code never gives ERR. That the legal set is the radio's fifteen codes, on every radio, is the model's
choice (log 15); in the spec's encodings it is R102's. -/
def Obligations.IllegalStrobeCodeAnswersErr : Prop :=
  ∀ (c : Byte) (s : State),
    ((∀ k, s.cfg.radio.code k ≠ c) → busStrobe c s = .ok none s) ∧
    ((∃ k, s.cfg.radio.code k = c) → ∀ t, busStrobe c s ≠ .ok none t) ∧
    ((∃ k, Radio.spec.code k = c) ↔ (0x30 ≤ c ∧ c ≤ 0x3D) ∨ c = 0xBD)

/-- R126, R146: a register write of one byte; in the status range it returns ERR and does nothing.
That the status range leaves out the configuration range on every radio is the model's choice (log 15). -/
def Obligations.RegisterWriteIssuesOneWriteOrErr : Prop :=
  ∀ (a : Addr) (v : Byte) (s : State),
    (s.cfg.radio.isStatusAddr a = true → exec (.regWriteSingle a v) s = .next { s with callReturn := .err }) ∧
    (s.cfg.radio.isStatusAddr a = false → s.pollsPass 1 →
      exec (.regWriteSingle a v) s =
        .next { s.busAfter [.write (s.cfg.radio.writeByte a) [v]] 0 0 0 1 with callReturn := .done })

/-- R125: a register read, by the configuration read or the status read as the address says. That
AUX_CFG_ADDR counts as a configuration address on every radio is the model's choice (log 15). -/
def Obligations.RegisterReadRoutesByAddress : Prop :=
  ∀ (a : Addr) (s : State), s.pollsPass 2 → let r := s.cfg.radio
    ∀ i ∈ [Instr.regReadConfig a, .regReadStatus a],
      exec i s = .next { s.busAfter
          [.read (if r.isConfigAddr a then r.configReadByte a else r.statusReadByte a) [s.dataDraw 0]]
          0 1 0 2 with
        callReturn := .value (s.dataDraw 0) }

/-- R127: a burst read of n bytes, one transaction with exactly the n bytes read; none for n = 0. -/
def Obligations.BurstReadReadsExactlyTheCount : Prop :=
  ∀ (a : Addr) (n : Byte) (s : State),
    ∀ p ∈ [(Instr.burstRead a n, a), (.rxfifoReadBurst n, s.cfg.radio.fifoAddr)],
      (n = 0 → exec p.1 s = .next { s with callReturn := .bytes [] }) ∧
      (n ≠ 0 → s.pollsPass (n.toNat + 1) →
        exec p.1 s = .next { s.busAfter [.read (s.cfg.radio.burstReadByte p.2) (s.dataBytes 0 n.toNat)] 0 n.toNat 0 (n.toNat + 1) with
          callReturn := .bytes (s.dataBytes 0 n.toNat) })

/-- R128: a burst write of the bytes given, one transaction; none for no bytes. -/
def Obligations.BurstWriteStreamsItsBytes : Prop :=
  ∀ (a : Addr) (ds : List Byte) (s : State),
    ∀ p ∈ [(Instr.burstWrite a ds, a), (.txfifoWriteBurst ds, s.cfg.radio.fifoAddr)],
      (ds = [] → exec p.1 s = .next { s with callReturn := .done }) ∧
      (ds ≠ [] → s.pollsPass ds.length →
        exec p.1 s = .next { s.busAfter [.write (s.cfg.radio.burstWriteByte p.2) ds] 0 0 0 ds.length with callReturn := .done })

/-- R129: BusPaWrite of 1 byte takes the single form, of more the burst form, and a no-op strobe always
follows; the two power-table rows run those forms. The burst row given no byte, or given one byte, for
which R129 has the single form, is the model's choice (log 20): the no-op strobe alone, and the burst
form of one byte with its no-op. -/
def Obligations.PowerTableWriteEndsWithNoOp : Prop :=
  ∀ (ds : List Byte) (s : State), let r := s.cfg.radio
    let noOp := Transaction.strobe (r.code .snop) (s.statusDraw 0)
    (ds = [] → s.pollsPass 1 → exec (.patableWriteBurst ds) s =
      .next { s.busAfter [noOp] 1 0 0 1 with callReturn := .done }) ∧
    (ds ≠ [] → s.pollsPass (ds.length + 1) →
      busPaWrite ds s = .ok () (s.busAfter (paTrace r ds ++ [noOp]) 1 0 0 (ds.length + 1)) ∧
      (∀ v, ds = [v] → exec (.patableWriteSingle v) s =
        .next { s.busAfter [.write (r.writeByte r.paTableAddr) [v], noOp] 1 0 0 2 with
          callReturn := .done }) ∧
      exec (.patableWriteBurst ds) s =
        .next { s.busAfter [.write (r.burstWriteByte r.paTableAddr) ds, noOp] 1 0 0 (ds.length + 1) with
          callReturn := .done })

/-- R30, R147 and R240: the frame of every bus instruction on every state and operand: it always
answers a next state, and only bus activity has happened, beside its return, BUS_TIMEOUT's fault
action under a finite cap, or a hang under INF (R148). -/
def Obligations.BusInstructionFrame : Prop :=
  ∀ (i : Instr) (s : State), i.port = .bus → ∃ t u, exec i s = .next t ∧ BusOnly s u ∧
    ((∃ r, t = { u with callReturn := r }) ∨
      (s.cfg.busWaitCap ≠ none ∧
        t = { faultAction .busTimeout u with callReturn := .faulted .busTimeout }) ∨
      (s.cfg.busWaitCap = none ∧ t = { u with hung := true }))

/-- R121: a ready-flag wait proceeds when the flag is seen within the cap, raises BUS_TIMEOUT when a
finite cap passes, and hangs when it is never seen under INF. -/
def Obligations.ReadyFlagWaitIsBounded : Prop :=
  ∀ (f : ReadyFlag) (s : State),
    (∀ k, s.pollDraw 0 = some k → (∀ c, s.cfg.busWaitCap = some c → k ≤ c) →
      waitFlag f s = .ok () (s.busAfter [] 0 0 0 1)) ∧
    (∀ c, s.cfg.busWaitCap = some c → (∀ k, s.pollDraw 0 = some k → c < k) →
      waitFlag f s = .raised .busTimeout (s.busAfter [] 0 0 0 1)) ∧
    (s.cfg.busWaitCap = none → s.pollDraw 0 = none → waitFlag f s = .hung (s.busAfter [] 0 0 0 1))

/-! ### The fault action -/

/-- R240, R241: the fault action's four writes, the first cause kept and nothing else written; what is
left of the micro-sequence does not run; a host command ends with the result its cause names, a
handler step with none. -/
def Obligations.FaultActionKeepsTheFirstCause : Prop :=
  ∀ (c : FaultCause) (s : State),
    (s.fault = false → faultAction c s =
      { s with faultCause := some c, fault := true, irqEn := false, linkState := .fault }) ∧
    (s.fault = true → faultAction c s = { s with irqEn := false, linkState := .fault }) ∧
    (∀ g : Unit → State → Flow Result, (Flow.raised c s).andThen g = .raised c s) ∧
    (∀ cmd, endCommand cmd (.raised .busTimeout s) = reply cmd .busTimeout 0 (faultAction .busTimeout s) ∧
      endCommand cmd (.raised .waitTimeout s) = reply cmd .waitTimeout 0 (faultAction .waitTimeout s)) ∧
    (endDrain (.raised c s)).hostLog = s.hostLog

/-- R148, R241, R246: with a finite cap passed at a command's first wait, every command that issues
transactions ends there with (BUS_TIMEOUT, 0), from every state it starts in: what it wrote before stays,
the fault action follows, no transaction is issued. A send has lost its frame (R216, R299). -/
def Obligations.BusTimeoutEndsTheCommandAtItsFirstWait : Prop :=
  ∀ (s : State) (c : Nat), s.cfg.busWaitCap = some c → (∀ k, s.pollDraw 0 = some k → c < k) →
    let u := s.busAfter [] 0 0 0 1
    let cut := fun (cmd : Instr) (v : State) => reply cmd .busTimeout 0 (faultAction .busTimeout v)
    exec .init s = .next (cut .init u) ∧
    (s.initDone = true →
      exec .waitIdlePoll s = .next (cut .waitIdlePoll u) ∧
      (s.linkState = .idle → exec .enterListen s = .next (cut .enterListen { u with irqPend := false })) ∧
      (s.linkState = .listening → exec .exitListen s = .next (cut .exitListen u)) ∧
      (s.linkState ≠ .transmitting →
        (∀ ds : List Byte, 1 ≤ ds.length → ds.length ≤ s.cfg.maxPayload →
          exec (.beginTx ds) s = .next (cut (.beginTx ds) u.atTxStart)) ∧
        (s.txqCount ≠ 0 → s.txqCount.toNat ≤ s.cfg.txqCap →
          exec .sendNextForce s = .next (cut .sendNextForce { u.atTxStart with txqCount := 0, txq := [] })) ∧
        (∀ pre post : List Byte, s.txqCount.toNat ≤ s.cfg.txqCap →
          queueBytes s = pre ++ [s.cfg.terminator] ++ post → s.cfg.terminator ∉ pre →
          ∃ t, exec .sendNextFull s = .next t ∧ queueBytes t = post ∧
            t = cut .sendNextFull { u.atTxStart with txqCount := t.txqCount, txq := t.txq })))

/-- R121, U6: with INF and a flag that never comes at a command's first wait, every command that issues
transactions never returns, from every state it starts in: what it wrote before stays, no result is
logged and no transaction issued. -/
def Obligations.NeverSeenFlagHangsTheCommand : Prop :=
  ∀ s : State, s.cfg.busWaitCap = none → s.pollDraw 0 = none →
    let u := { s.busAfter [] 0 0 0 1 with hung := true }
    exec .init s = .next u ∧
    (s.initDone = true → exec .waitIdlePoll s = .next u ∧
      (s.linkState = .idle → exec .enterListen s = .next { u with irqEn := true, irqPend := false }) ∧
      (s.linkState = .listening → exec .exitListen s = .next { u with irqEn := false }) ∧
      (s.linkState ≠ .transmitting →
        (∀ ds : List Byte, 1 ≤ ds.length → ds.length ≤ s.cfg.maxPayload →
          exec (.beginTx ds) s = .next u.atTxStart) ∧
        (s.txqCount ≠ 0 → s.txqCount.toNat ≤ s.cfg.txqCap →
          exec .sendNextForce s = .next { u.atTxStart with txqCount := 0, txq := [] }) ∧
        (∀ pre post : List Byte, s.txqCount.toNat ≤ s.cfg.txqCap →
          queueBytes s = pre ++ [s.cfg.terminator] ++ post → s.cfg.terminator ∉ pre →
          ∃ t, exec .sendNextFull s = .next t ∧ queueBytes t = post ∧
            t = { u.atTxStart with txqCount := t.txqCount, txq := t.txq })))

/-! ### Host commands -/

/-- R149: before the first INIT every command that issues a bus transaction returns NOT_INITIALIZED and
does nothing else, whatever else would be checked; INIT, APPEND, READ_STATUS and illegal opcodes do
not make this check. -/
def Obligations.CommandsBeforeInitDoNothing : Prop :=
  ∀ (s : State) (ds : List Byte), s.initDone = false →
    (∀ i ∈ [Instr.enterListen, .exitListen, .beginTx ds, .sendNextFull, .sendNextForce, .waitIdlePoll],
      exec i s = .next (reply i .notInitialized 0 s)) ∧
    ∀ op, ∀ i ∈ [Instr.init, .append ds, .readStatus, .illegalOpcode op],
      ∃ t, exec i s = .next t ∧ { cmd := i, result := { code := .notInitialized, value := 0 } } ∉
        t.hostLog.drop s.hostLog.length

/-- R152, R154, R156: a command illegal in the current LINK_STATE returns ILLEGAL_STATE, BEGIN_TX with
a bad length BAD_LENGTH, and nothing else is done. -/
def Obligations.IllegalCommandsDoNothing : Prop :=
  ∀ (s : State) (ds : List Byte), s.initDone = true →
    (s.linkState ≠ .idle → exec .enterListen s = .next (reply .enterListen .illegalState 0 s)) ∧
    (s.linkState ≠ .listening → exec .exitListen s = .next (reply .exitListen .illegalState 0 s)) ∧
    (s.linkState = .transmitting → exec (.beginTx ds) s = .next (reply (.beginTx ds) .illegalState 0 s)) ∧
    (s.linkState ≠ .transmitting → ds.length = 0 ∨ s.cfg.maxPayload < ds.length →
      exec (.beginTx ds) s = .next (reply (.beginTx ds) .badLength 0 s))

/-- R150, R284: INIT with the ready flags in time: radio reset, no-op, flags reset, configuration in
table order, power table, no-op, INIT_DONE, (OK, 0), from every state. It reaches `AUX_CFG_ADDR` (R76)
as the table lists it and not otherwise, the model's reading, DEDUCED (log 26). -/
def Obligations.InitProgramsTheRadioAndClearsTheFlags : Prop :=
  ∀ s : State, s.cfg.wf = true → s.pollsPass (3 + s.cfg.configTable.length + s.cfg.paTable.length) →
    exec .init s = .next (reply .init .ok 0
      { s.busAfter ([s.plainTrace .sres 0, s.plainTrace .snop 1] ++ configTrace s.cfg.radio s.cfg.configTable ++
          paTrace s.cfg.radio s.cfg.paTable ++ [s.plainTrace .snop 2])
          3 0 0 (3 + s.cfg.configTable.length + s.cfg.paTable.length) with
        linkState := .idle, fault := false, faultCause := none, lastRx := none, irqEn := false
        irqPend := false, waitCnt := 0, initDone := true
        txqCount := if s.cfg.initClearsTxq then 0 else s.txqCount })

/-- R150: INIT erases the fault history: two machines that differ only in the flags INIT resets are the
same after it. -/
def Obligations.InitErasesTheFaultHistory : Prop :=
  ∀ s s' t t' : State, s.cfg.wf = true →
    s.pollsPass (3 + s.cfg.configTable.length + s.cfg.paTable.length) →
    s' = { s with
      linkState := s'.linkState, fault := s'.fault, faultCause := s'.faultCause, lastRx := s'.lastRx
      irqEn := s'.irqEn, irqPend := s'.irqPend, waitCnt := s'.waitCnt } →
    exec .init s = .next t → exec .init s' = .next t' → t = t' ∧ t.fault = false

/-- R152: ENTER_LISTEN from Idle. -/
def Obligations.EnterListenArmsReception : Prop :=
  ∀ s : State, s.initDone = true → s.linkState = .idle → s.pollsPass 7 →
    ∃ w, exec .enterListen s = .next (reply .enterListen .ok 0
      { s.busAfter (s.opTraceAt .srx 0) 1 1 1 w with
        irqEn := true, irqPend := false, linkState := .listening })

/-- R154, R155: EXIT_LISTEN from Listening; IRQ_PEND stays. -/
def Obligations.ExitListenIdlesAndFlushes : Prop :=
  ∀ s : State, s.initDone = true → s.linkState = .listening → s.pollsPass 14 →
    ∃ w, exec .exitListen s = .next (reply .exitListen .ok 0
      { s.busAfter (s.opTraceAt .sidle 0 ++ s.opTraceAt .sfrx 1) 2 2 2 w with
        irqEn := false, linkState := .idle })

/-- R156, R157, R112: BEGIN_TX from Idle, Listening or Fault with 1 to MAX_PAYLOAD bytes. -/
def Obligations.BeginTxWritesTheFrameAndTransmits : Prop :=
  ∀ (s : State) (ds : List Byte), s.initDone = true → s.linkState ≠ .transmitting → 1 ≤ ds.length →
    ds.length ≤ s.cfg.maxPayload → s.pollsPass (ds.length + 22) →
    ∃ w, exec (.beginTx ds) s = .next (reply (.beginTx ds) .ok 0
      { s.busAfter (s.txTrace ds) s.txStrobes s.txStrobes s.txStrobes w with
        irqPend := false, irqEn := true, linkState := .transmitting })

/-- R160: WAIT_IDLE_POLL: Idle clears the counter, another state counts up, poll number WAIT_CAP
without Idle faults with WAIT_CNT = 0. LINK_STATE is unchanged on OK and NOT_IDLE. -/
def Obligations.WaitIdlePollCountsUnsuccessfulPolls : Prop :=
  ∀ s : State, s.initDone = true → s.pollsPass 1 →
    let st := s.statusDraw 0
    let u := s.busAfter [s.plainTrace .snop 0] 1 0 0 1
    (s.seesIdle st → exec .waitIdlePoll s =
      .next (reply .waitIdlePoll .ok (st.setWidth 32) { u with waitCnt := 0 })) ∧
    (¬ s.seesIdle st → s.cfg.waitCap ≤ s.waitCnt.toNat + 1 → exec .waitIdlePoll s =
      .next (reply .waitIdlePoll .waitTimeout 0 (faultAction .waitTimeout { u with waitCnt := 0 }))) ∧
    (¬ s.seesIdle st → s.waitCnt.toNat + 1 < s.cfg.waitCap → exec .waitIdlePoll s =
      .next (reply .waitIdlePoll .notIdle (st.setWidth 32) { u with waitCnt := s.waitCnt + 1 }))

/-- R45, R162: READ_STATUS returns OK with the status word, whose fields are the registers, and writes
nothing. The codes are those of R32, R37 and R38. -/
def Obligations.ReadStatusReturnsTheRegisters : Prop :=
  ∀ s : State, ∃ w : Word32, exec .readStatus s = .next (reply .readStatus .ok w s) ∧
    w.extractLsb' 0 2 = (match s.linkState with
      | .idle => 0 | .listening => 1 | .transmitting => 2 | .fault => 3) ∧
    w.getLsbD 2 = s.fault ∧ w.getLsbD 3 = s.irqEn ∧
    w.getLsbD 4 = s.irqPend ∧ w.getLsbD 5 = (s.linkState == .transmitting) ∧
    w.getLsbD 6 = (s.linkState == .listening) ∧ w.getLsbD 7 = s.initDone ∧
    w.extractLsb' 8 4 = (match s.faultCause with
      | none => 0 | some .stateMismatch => 1 | some .shortFrame => 2 | some .crcFailure => 3
      | some .frameOverflow => 4 | some .busTimeout => 5 | some .waitTimeout => 6) ∧
    w.extractLsb' 12 4 = (match s.lastRx with
      | none => 0 | some .ok => 1 | some .sinkOverflow => 2 | some .stateMismatch => 3
      | some .shortFrame => 4 | some .crcFailure => 5 | some .frameOverflow => 6 | some .busTimeout => 7) ∧
    w.extractLsb' 16 8 = s.txqCount ∧ w.extractLsb' 24 8 = s.waitCnt

/-- R93: an opcode 0x00 or 0x0A to 0xFF is a one-byte command that returns (ILLEGAL_OPCODE, 0), writes
no state and issues no transaction; a string that is cut short is no host command and is refused. -/
def Obligations.IllegalOpcodeIsAnsweredAndCutShortStringIsRefused : Prop :=
  (∀ (op : Byte) (rest : List Byte) (s : State), op = 0x00 ∨ 0x0A ≤ op →
    decodeHost (op :: rest) = .instr (.illegalOpcode op) rest ∧
    exec (.illegalOpcode op) s = .next (reply (.illegalOpcode op) .illegalOpcode 0 s)) ∧
  (∀ (s : State) (bytes : List Byte) (rest : List Input), s.cfg.wf = true → s.hung = false →
    s.inputs = .host bytes :: rest → (bytes = [] ∨ bytes = [0x04] ∨ bytes = [0x05] ∨
      ∃ n ds, (bytes = 0x04 :: n :: ds ∨ bytes = 0x05 :: n :: ds) ∧ ds.length < n.toNat) →
    step s = .refused .cutShort)

/-- R71, R96: the result is the code, by its number, and the value, least significant byte first. -/
def Obligations.ResultGoesOutLeastSignificantByteFirst : Prop :=
  ∀ r : Result, ∃ c v0 v1 v2 v3 : Byte, r.bytes = [c, v0, v1, v2, v3] ∧
    c = (match r.code with
      | .ok => 0 | .illegalState => 1 | .queueFull => 2 | .badLength => 3 | .busTimeout => 4
      | .waitTimeout => 5 | .notIdle => 6 | .notInitialized => 7 | .illegalOpcode => 8) ∧
    r.value.toNat = v0.toNat + 256 * v1.toNat + 65536 * v2.toNat + 16777216 * v3.toNat

/-- R96: every host command of a machine that is not hung either returns, and logs exactly one result,
its own, or hangs and logs none; the value is 0 unless the code is OK or NOT_IDLE. -/
def Obligations.HostCommandReturnsExactlyOneResult : Prop :=
  ∀ (i : Instr) (s t : State), i.port = .host → s.hung = false → exec i s = .next t →
    (t.hung = false ∧ ∃ r, t.hostLog = s.hostLog ++ [{ cmd := i, result := r }] ∧
      (r.code ≠ .ok → r.code ≠ .notIdle → r.value = 0)) ∨
    (t.hung = true ∧ t.hostLog = s.hostLog ∧ s.cfg.busWaitCap = none)

/-! ### The transmit queue -/

/-- R210: APPEND puts all the bytes behind the queue's, or, where they would exceed the capacity,
returns QUEUE_FULL and changes nothing. Every byte of TXQ outside the stored ones is as before. -/
def Obligations.AppendIsAllOrNothing : Prop :=
  ∀ (s : State) (ds : List Byte), s.cfg.txqCap ≤ 255 →
    (s.cfg.txqCap < s.txqCount.toNat + ds.length →
      exec (.append ds) s = .next (reply (.append ds) .queueFull 0 s)) ∧
    (s.txqCount.toNat + ds.length ≤ s.cfg.txqCap →
      ∃ t, exec (.append ds) s = .next t ∧ queueBytes t = queueBytes s ++ ds ∧
        t.txqCount.toNat = s.txqCount.toNat + ds.length ∧
        (∀ k, k < s.txqCount.toNat ∨ s.txqCount.toNat + ds.length ≤ k →
          memGet? t.txq k = memGet? s.txq k) ∧
        t = reply (.append ds) .ok 1 { s with txq := t.txq, txqCount := t.txqCount })

/-- R212, R214, R215, R216: SEND_NEXT.FULL sends the bytes up to and including the first terminator,
compacts the rest to the front, and returns the frame's length. -/
def Obligations.SendNextFullSendsTheFirstMessage : Prop :=
  ∀ (s : State) (pre post : List Byte), s.initDone = true → s.linkState ≠ .transmitting →
    s.txqCount.toNat ≤ s.cfg.txqCap → queueBytes s = pre ++ [s.cfg.terminator] ++ post →
    s.cfg.terminator ∉ pre →
    s.pollsPass (pre.length + 23) →
    ∃ t w, exec .sendNextFull s = .next t ∧ queueBytes t = post ∧ t.txqCount.toNat = post.length ∧
      t = reply .sendNextFull .ok (BitVec.ofNat 32 (pre.length + 1))
        { s.busAfter (s.txTrace (pre ++ [s.cfg.terminator])) s.txStrobes s.txStrobes s.txStrobes w with
          txq := t.txq, txqCount := t.txqCount
          irqPend := false, irqEn := true, linkState := .transmitting }

/-- R213, R216: SEND_NEXT.FORCE sends the whole queue as one frame and leaves it empty. -/
def Obligations.SendNextForceSendsTheWholeQueue : Prop :=
  ∀ s : State, s.initDone = true → s.linkState ≠ .transmitting → s.txqCount ≠ 0 →
    s.txqCount.toNat ≤ s.cfg.txqCap → s.pollsPass (s.txqCount.toNat + 22) →
    ∃ w, exec .sendNextForce s = .next (reply .sendNextForce .ok (s.txqCount.setWidth 32)
      { s.busAfter (s.txTrace (queueBytes s)) s.txStrobes s.txStrobes s.txStrobes w with
        txq := [], txqCount := 0, irqPend := false, irqEn := true, linkState := .transmitting })

/-- R212, R213, R217: nothing is sent while Transmitting, from an empty queue, or by FULL without a
terminator: (OK, 0), no state change, no transaction. -/
def Obligations.SendNextWithNothingToSendDoesNothing : Prop :=
  ∀ s : State, s.initDone = true →
    (s.linkState = .transmitting ∨ s.txqCount = 0 →
      exec .sendNextFull s = .next (reply .sendNextFull .ok 0 s) ∧
      exec .sendNextForce s = .next (reply .sendNextForce .ok 0 s)) ∧
    (s.txqCount.toNat ≤ s.cfg.txqCap → s.cfg.terminator ∉ queueBytes s →
      exec .sendNextFull s = .next (reply .sendNextFull .ok 0 s))

/-- The model's own stop (log 12, of R74): where TXQ_COUNT lies outside TXQ, which no state reached
from reset has, a send that would read there faults. -/
def Obligations.SendNextOutsideTheQueueFaults : Prop :=
  ∀ s : State, s.initDone = true → s.linkState ≠ .transmitting → s.cfg.txqCap < s.txqCount.toNat →
    exec .sendNextFull s = .fault .txqIndex ∧ exec .sendNextForce s = .fault .txqIndex

/-- The source's property S1 (95 section 1): APPEND and then SEND_NEXT.FORCE from Idle with an empty
queue put exactly the length and the payload into the TX FIFO. -/
def Obligations.AppendedBytesReachTheTxFifoExactly : Prop :=
  ∀ (s : State) (ds : List Byte), s.cfg.wf = true → s.initDone = true → s.linkState = .idle →
    s.txqCount = 0 → 1 ≤ ds.length → ds.length ≤ s.cfg.txqCap → s.pollsPass (ds.length + 22) →
    ∃ t u, exec (.append ds) s = .next t ∧ exec .sendNextForce t = .next u ∧
      u.busTrace = s.busTrace ++
        [.write (s.cfg.radio.burstWriteByte s.cfg.radio.fifoAddr) (BitVec.ofNat 8 ds.length :: ds)] ++
        s.opTraceAt .stx 0 ∧
      u.linkState = .transmitting ∧ u.txqCount = 0 ∧
      u.hostLog = s.hostLog ++ [{ cmd := .append ds, result := { code := .ok, value := 1 } },
        { cmd := .sendNextForce, result := { code := .ok, value := BitVec.ofNat 32 ds.length } }]

/-! ### The completion handler and the receive parser -/

/-- R170, R172, after the entry of R250: the handler's step in Transmitting, Idle and Fault. Between
transitions, that is where no transition hangs (log 7), no state that meets the invariant of R50 has
IRQ_EN = 1 in the latter two. -/
def Obligations.HandlerOutsideListening : Prop :=
  ∀ s : State,
    (s.linkState = .transmitting →
      handlerStep s = { s with irqPend := false, irqEn := false, linkState := .idle }) ∧
    (s.linkState = .idle ∨ s.linkState = .fault →
      handlerStep s = { s with irqPend := false, irqEn := false } ∧
      (s.Inv → s.hung = false → s.irqEn = false))

/-- R194, R196, R197: a good frame of 4 to RX_CAP bytes in the handler's step: read into RXBUF, sliced by
the count N, and delivered whole if the sink has room for its N - 3 payload bytes, else discarded with
LAST_RX SINK_OVERFLOW and no fault. Other bytes of RXBUF are as before. -/
def Obligations.GoodFrameIsDeliveredWholeOrDiscarded : Prop :=
  ∀ s : State, s.linkState = .listening → s.seesIdle (s.statusDraw 0) →
    let n := (s.dataDraw 0).toNat
    4 ≤ n → n ≤ s.cfg.rxCap → s.pollsPass (n + 4) → (s.dataDraw n).getLsbD 7 = true →
    let t := handlerStep s
    (∀ k < n, memGet? t.rxbuf k = some (s.dataDraw (k + 1))) ∧
    (∀ k, n ≤ k → memGet? t.rxbuf k = memGet? s.rxbuf k) ∧
    t = { s.busAfter (s.parserTrace ++
          [.read (s.cfg.radio.burstReadByte s.cfg.radio.fifoAddr) (s.dataBytes 1 n)]) 1 (n + 1) 0 (n + 4) with
        linkState := .idle, irqPend := false, irqEn := false, rxbuf := t.rxbuf
        roomAnswers := s.roomAnswers.drop 1
        lastRx := if n - 3 ≤ s.roomDraw 0 then some .ok else some .sinkOverflow
        sinkLog := if n - 3 ≤ s.roomDraw 0 then s.sinkLog ++
            [Delivery.mk (s.dataBytes 2 (n - 3)) (s.dataDraw (n - 1)) (s.dataDraw n &&& 0x7F)]
          else s.sinkLog }

/-- R192, R193: in the handler's step, a radio that does not report Idle, a count below 4 and a count
above RX_CAP fault without consuming data, each with its cause and its LAST_RX (R199). A count is
below 4 before it is compared with RX_CAP. -/
def Obligations.BadStateOrCountFaultsWithoutConsumingData : Prop :=
  ∀ s : State, s.linkState = .listening → s.pollsPass 3 →
    let st := s.statusDraw 0
    let n := (s.dataDraw 0).toNat
    let u := s.busAfter s.parserTrace 1 1 0 3
    (¬ s.seesIdle st → handlerStep s = faultAction .stateMismatch
      { s.busAfter [s.plainTrace .snop 0] 1 0 0 1 with irqPend := false, lastRx := some .stateMismatch }) ∧
    (s.seesIdle st → n < 4 → handlerStep s = faultAction .shortFrame
      { u with irqPend := false, lastRx := some .shortFrame }) ∧
    (s.seesIdle st → 4 ≤ n → s.cfg.rxCap < n → handlerStep s = faultAction .frameOverflow
      { u with irqPend := false, lastRx := some .frameOverflow })

/-- R195: in the handler's step, a frame whose status byte has bit 7 clear is read, never reaches the
sink, and sets the fault indicator; with the cause CRC_FAILURE and its LAST_RX (R199). -/
def Obligations.CrcFailureDiscardsTheFrame : Prop :=
  ∀ s : State, s.linkState = .listening → s.seesIdle (s.statusDraw 0) →
    let n := (s.dataDraw 0).toNat
    4 ≤ n → n ≤ s.cfg.rxCap → s.pollsPass (n + 4) → (s.dataDraw n).getLsbD 7 = false →
    let t := handlerStep s
    t.sinkLog = s.sinkLog ∧ t.fault = true ∧
      (∀ k < n, memGet? t.rxbuf k = some (s.dataDraw (k + 1))) ∧
      (∀ k, n ≤ k → memGet? t.rxbuf k = memGet? s.rxbuf k) ∧
      t = faultAction .crcFailure { s.busAfter (s.parserTrace ++
            [.read (s.cfg.radio.burstReadByte s.cfg.radio.fifoAddr) (s.dataBytes 1 n)]) 1 (n + 1) 0 (n + 4) with
          irqPend := false, rxbuf := t.rxbuf, lastRx := some .crcFailure }

/-- R199, R241, R242: a bus timeout inside the parser, here at its first wait, writes LAST_RX 7 and
faults; no result is returned to anyone. -/
def Obligations.BusTimeoutInTheParserFaults : Prop :=
  ∀ (s : State) (c : Nat), s.linkState = .listening → s.cfg.busWaitCap = some c →
    (∀ k, s.pollDraw 0 = some k → c < k) →
    handlerStep s = faultAction .busTimeout
      { s.busAfter [] 0 0 0 1 with irqPend := false, lastRx := some .busTimeout }

/-- R251, R171: every handler step that ends leaves IRQ_EN = 0 and IRQ_PEND = 0 and is not in Listening
or Transmitting, so the handler cannot run twice for one arming; it returns no result, writes no queue
byte, no counter and no INIT_DONE. -/
def Obligations.HandlerDisarmsItself : Prop :=
  ∀ s : State, let t := handlerStep s
    t.irqPend = false ∧ (t.hung = true ∨ (t.irqEn = false ∧ (t.linkState = .idle ∨ t.linkState = .fault))) ∧
    t.hostLog = s.hostLog ∧ t.txq = s.txq ∧ t.txqCount = s.txqCount ∧ t.waitCnt = s.waitCnt ∧
    t.initDone = s.initDone

/-! ### Whole-machine rules -/

/-- R50 and the memories' canonical form hold after power-on reset under every well-formed
configuration. -/
def Obligations.PowerOnStateMeetsTheInvariant : Prop :=
  State.reset.Inv ∧ ∀ c : Config.Params, c.wf = true → (State.powerOn c).Inv

/-- R50: every step keeps the invariant, from every state that meets it. -/
def Obligations.EveryStepKeepsTheInvariant : Prop :=
  ∀ s t : State, s.Inv → step s = .next t → t.Inv

/-- Under the invariant no step faults: the model's own stop (log 12) is out of reach. -/
def Obligations.NoStepFaultsUnderTheInvariant : Prop :=
  ∀ s : State, s.Inv → ∀ f, step s ≠ .fault f

/-- R46: no step writes the configuration. -/
def Obligations.ConfigurationIsNeverWritten : Prop :=
  ∀ s t : State, step s = .next t → t.cfg = s.cfg

/-- R47, R48, R13: the bus trace, the sink log and the command log are append-only. R147: the dispatcher
is never laid open by a step, and while it is not, only a host command and the handler's step in
Listening add to the bus trace. -/
def Obligations.LogsAreAppendOnlyAndTheBusIsTheRlcsAlone : Prop :=
  ∀ s t : State, step s = .next t →
    (∃ new, t.busTrace = s.busTrace ++ new) ∧ (∃ new, t.sinkLog = s.sinkLog ++ new) ∧
    (∃ new, t.hostLog = s.hostLog ++ new) ∧ t.openBus = s.openBus ∧
    (s.openBus = false → t.busTrace ≠ s.busTrace →
      (∃ i, i.port = .host ∧ s.runsHost i) ∨
      (s.linkState = .listening ∧ s.irqEn = true ∧ s.irqPend = true ∧
        (s.inputs = [] ∨ ∃ rest, s.inputs = .handler :: rest)))

/-- R36, R245: FAULT is cleared by INIT alone, and FAULT_CAUSE, once set, is changed by INIT alone. -/
def Obligations.OnlyInitClearsFault : Prop :=
  ∀ s t : State, step s = .next t → s.fault = true →
    (t.fault = false ∨ t.faultCause ≠ s.faultCause) → s.runsHost .init

/-- R33: the Fault state is left only by INIT, BEGIN_TX or a SEND_NEXT, and entered only with FAULT set
and IRQ_EN clear, as the fault action leaves them. -/
def Obligations.FaultStateIsLeftOnlyByInitOrTransmission : Prop :=
  ∀ s t : State, step s = .next t →
    (s.linkState = .fault → t.linkState ≠ .fault →
      s.runsHost .init ∨ (∃ ds, s.runsHost (.beginTx ds)) ∨ s.runsHost .sendNextFull ∨
        s.runsHost .sendNextForce) ∧
    (s.linkState ≠ .fault → t.linkState = .fault → t.fault = true ∧ t.irqEn = false)

/-- R42: INIT_DONE is set only by INIT and never cleared. -/
def Obligations.InitDoneIsSetByInitAndNeverCleared : Prop :=
  ∀ s t : State, step s = .next t →
    (s.initDone = true → t.initDone = true) ∧
    (s.initDone = false → t.initDone = true → s.runsHost .init)

/-- R158: while Transmitting no host command writes the TX FIFO, on a radio whose TX FIFO instruction
byte is none of its other write bytes, as in the spec's encodings. -/
def Obligations.NoTxFifoWriteWhileTransmitting : Prop :=
  ∀ (i : Instr) (s t : State), let r := s.cfg.radio
    (∀ a, r.writeByte a ≠ r.burstWriteByte r.fifoAddr) →
    r.burstWriteByte r.paTableAddr ≠ r.burstWriteByte r.fifoAddr →
    i.port = .host → s.linkState = .transmitting → exec i s = .next t →
    ∃ new, t.busTrace = s.busTrace ++ new ∧ ∀ ds, Transaction.write (r.burstWriteByte r.fifoAddr) ds ∉ new

/-- R197, R191: only the handler's step in Listening delivers, one frame at most, and then LAST_RX is
OK. -/
def Obligations.OnlyTheListeningHandlerDelivers : Prop :=
  ∀ s t : State, step s = .next t → t.sinkLog ≠ s.sinkLog →
    s.hung = false ∧ (s.inputs = [] ∨ ∃ rest, s.inputs = .handler :: rest) ∧
    s.linkState = .listening ∧ s.irqEn = true ∧ s.irqPend = true ∧ t.lastRx = some .ok ∧
    t.linkState = .idle ∧
    ∃ d, t.sinkLog = s.sinkLog ++ [d] ∧ 1 ≤ d.payload.length ∧ d.payload.length + 3 ≤ s.cfg.rxCap

/-- R52: what the host commands leave alone, on every state and operand (faults included): RXBUF and
the sink log always; LAST_RX and INIT_DONE but for INIT; WAIT_CNT but for INIT and WAIT_IDLE_POLL; TXQ
but for APPEND and SEND_NEXT, and TXQ_COUNT but for those and INIT; the schedule and the sink's answers
always. -/
def Obligations.HostCommandFrame : Prop :=
  ∀ (i : Instr) (s t : State), i.port = .host → exec i s = .next t →
    t.rxbuf = s.rxbuf ∧ t.sinkLog = s.sinkLog ∧ t.inputs = s.inputs ∧ t.roomAnswers = s.roomAnswers ∧
    t.callReturn = s.callReturn ∧
    (i ≠ .init → t.lastRx = s.lastRx ∧ t.initDone = s.initDone) ∧
    (i ≠ .init → i ≠ .waitIdlePoll → t.waitCnt = s.waitCnt) ∧
    ((∀ ds, i ≠ .append ds) → i ≠ .sendNextFull → i ≠ .sendNextForce →
      t.txq = s.txq ∧ (i ≠ .init → t.txqCount = s.txqCount)) ∧
    (i = .init → t.txqCount = s.txqCount ∨ (s.cfg.initClearsTxq = true ∧ t.txqCount = 0))

/-- R40, R249: IRQ_PEND is set by a falling edge of the Line alone. -/
def Obligations.OnlyTheLineSetsIrqPend : Prop :=
  ∀ s t : State, step s = .next t → s.irqPend = false → t.irqPend = true →
    ∃ rest, s.inputs = .lineFall :: rest

/-- R39: IRQ_EN is set only by ENTER_LISTEN, BEGIN_TX or a SEND_NEXT. -/
def Obligations.OnlyListeningOrTransmittingArmsTheInterrupt : Prop :=
  ∀ s t : State, step s = .next t → s.irqEn = false → t.irqEn = true →
    s.runsHost .enterListen ∨ (∃ ds, s.runsHost (.beginTx ds)) ∨ s.runsHost .sendNextFull ∨
      s.runsHost .sendNextForce
end

