-- ==== Sys2Proof/Laws/State.lean ====
section
/-! SUPPORT. The fields of each named update of State, one lemma each. -/

namespace Sys2Proof.Machine

variable (s : State)

/-! ### traced -/

@[simp] theorem traced_linkState (t : Transaction) : (s.traced t).linkState = s.linkState := rfl
@[simp] theorem traced_fault (t : Transaction) : (s.traced t).fault = s.fault := rfl
@[simp] theorem traced_faultCause (t : Transaction) : (s.traced t).faultCause = s.faultCause := rfl
@[simp] theorem traced_lastRx (t : Transaction) : (s.traced t).lastRx = s.lastRx := rfl
@[simp] theorem traced_irqEn (t : Transaction) : (s.traced t).irqEn = s.irqEn := rfl
@[simp] theorem traced_irqPend (t : Transaction) : (s.traced t).irqPend = s.irqPend := rfl
@[simp] theorem traced_waitCnt (t : Transaction) : (s.traced t).waitCnt = s.waitCnt := rfl
@[simp] theorem traced_initDone (t : Transaction) : (s.traced t).initDone = s.initDone := rfl
@[simp] theorem traced_txqCount (t : Transaction) : (s.traced t).txqCount = s.txqCount := rfl
@[simp] theorem traced_txq (t : Transaction) : (s.traced t).txq = s.txq := rfl
@[simp] theorem traced_rxbuf (t : Transaction) : (s.traced t).rxbuf = s.rxbuf := rfl
@[simp] theorem traced_busTrace (t : Transaction) : (s.traced t).busTrace = s.busTrace ++ [t] := rfl
@[simp] theorem traced_sinkLog (t : Transaction) : (s.traced t).sinkLog = s.sinkLog := rfl
@[simp] theorem traced_cfg (t : Transaction) : (s.traced t).cfg = s.cfg := rfl
@[simp] theorem traced_hostLog (t : Transaction) : (s.traced t).hostLog = s.hostLog := rfl
@[simp] theorem traced_callReturn (t : Transaction) : (s.traced t).callReturn = s.callReturn := rfl
@[simp] theorem traced_hung (t : Transaction) : (s.traced t).hung = s.hung := rfl
@[simp] theorem traced_openBus (t : Transaction) : (s.traced t).openBus = s.openBus := rfl
@[simp] theorem traced_inputs (t : Transaction) : (s.traced t).inputs = s.inputs := rfl
@[simp] theorem traced_statusAnswers (t : Transaction) : (s.traced t).statusAnswers =
    s.statusAnswers := rfl
@[simp] theorem traced_dataAnswers (t : Transaction) : (s.traced t).dataAnswers = s.dataAnswers := rfl
@[simp] theorem traced_asleepAnswers (t : Transaction) : (s.traced t).asleepAnswers =
    s.asleepAnswers := rfl
@[simp] theorem traced_pollAnswers (t : Transaction) : (s.traced t).pollAnswers = s.pollAnswers := rfl
@[simp] theorem traced_roomAnswers (t : Transaction) : (s.traced t).roomAnswers = s.roomAnswers := rfl

/-! ### tookStatus -/

@[simp] theorem tookStatus_linkState : s.tookStatus.linkState = s.linkState := rfl
@[simp] theorem tookStatus_fault : s.tookStatus.fault = s.fault := rfl
@[simp] theorem tookStatus_faultCause : s.tookStatus.faultCause = s.faultCause := rfl
@[simp] theorem tookStatus_lastRx : s.tookStatus.lastRx = s.lastRx := rfl
@[simp] theorem tookStatus_irqEn : s.tookStatus.irqEn = s.irqEn := rfl
@[simp] theorem tookStatus_irqPend : s.tookStatus.irqPend = s.irqPend := rfl
@[simp] theorem tookStatus_waitCnt : s.tookStatus.waitCnt = s.waitCnt := rfl
@[simp] theorem tookStatus_initDone : s.tookStatus.initDone = s.initDone := rfl
@[simp] theorem tookStatus_txqCount : s.tookStatus.txqCount = s.txqCount := rfl
@[simp] theorem tookStatus_txq : s.tookStatus.txq = s.txq := rfl
@[simp] theorem tookStatus_rxbuf : s.tookStatus.rxbuf = s.rxbuf := rfl
@[simp] theorem tookStatus_busTrace : s.tookStatus.busTrace = s.busTrace := rfl
@[simp] theorem tookStatus_sinkLog : s.tookStatus.sinkLog = s.sinkLog := rfl
@[simp] theorem tookStatus_cfg : s.tookStatus.cfg = s.cfg := rfl
@[simp] theorem tookStatus_hostLog : s.tookStatus.hostLog = s.hostLog := rfl
@[simp] theorem tookStatus_callReturn : s.tookStatus.callReturn = s.callReturn := rfl
@[simp] theorem tookStatus_hung : s.tookStatus.hung = s.hung := rfl
@[simp] theorem tookStatus_openBus : s.tookStatus.openBus = s.openBus := rfl
@[simp] theorem tookStatus_inputs : s.tookStatus.inputs = s.inputs := rfl
@[simp] theorem tookStatus_statusAnswers : s.tookStatus.statusAnswers = s.statusAnswers.drop 1 := rfl
@[simp] theorem tookStatus_dataAnswers : s.tookStatus.dataAnswers = s.dataAnswers := rfl
@[simp] theorem tookStatus_asleepAnswers : s.tookStatus.asleepAnswers = s.asleepAnswers := rfl
@[simp] theorem tookStatus_pollAnswers : s.tookStatus.pollAnswers = s.pollAnswers := rfl
@[simp] theorem tookStatus_roomAnswers : s.tookStatus.roomAnswers = s.roomAnswers := rfl

/-! ### tookData -/

@[simp] theorem tookData_linkState : s.tookData.linkState = s.linkState := rfl
@[simp] theorem tookData_fault : s.tookData.fault = s.fault := rfl
@[simp] theorem tookData_faultCause : s.tookData.faultCause = s.faultCause := rfl
@[simp] theorem tookData_lastRx : s.tookData.lastRx = s.lastRx := rfl
@[simp] theorem tookData_irqEn : s.tookData.irqEn = s.irqEn := rfl
@[simp] theorem tookData_irqPend : s.tookData.irqPend = s.irqPend := rfl
@[simp] theorem tookData_waitCnt : s.tookData.waitCnt = s.waitCnt := rfl
@[simp] theorem tookData_initDone : s.tookData.initDone = s.initDone := rfl
@[simp] theorem tookData_txqCount : s.tookData.txqCount = s.txqCount := rfl
@[simp] theorem tookData_txq : s.tookData.txq = s.txq := rfl
@[simp] theorem tookData_rxbuf : s.tookData.rxbuf = s.rxbuf := rfl
@[simp] theorem tookData_busTrace : s.tookData.busTrace = s.busTrace := rfl
@[simp] theorem tookData_sinkLog : s.tookData.sinkLog = s.sinkLog := rfl
@[simp] theorem tookData_cfg : s.tookData.cfg = s.cfg := rfl
@[simp] theorem tookData_hostLog : s.tookData.hostLog = s.hostLog := rfl
@[simp] theorem tookData_callReturn : s.tookData.callReturn = s.callReturn := rfl
@[simp] theorem tookData_hung : s.tookData.hung = s.hung := rfl
@[simp] theorem tookData_openBus : s.tookData.openBus = s.openBus := rfl
@[simp] theorem tookData_inputs : s.tookData.inputs = s.inputs := rfl
@[simp] theorem tookData_statusAnswers : s.tookData.statusAnswers = s.statusAnswers := rfl
@[simp] theorem tookData_dataAnswers : s.tookData.dataAnswers = s.dataAnswers.drop 1 := rfl
@[simp] theorem tookData_asleepAnswers : s.tookData.asleepAnswers = s.asleepAnswers := rfl
@[simp] theorem tookData_pollAnswers : s.tookData.pollAnswers = s.pollAnswers := rfl
@[simp] theorem tookData_roomAnswers : s.tookData.roomAnswers = s.roomAnswers := rfl

/-! ### tookAsleep -/

@[simp] theorem tookAsleep_linkState : s.tookAsleep.linkState = s.linkState := rfl
@[simp] theorem tookAsleep_fault : s.tookAsleep.fault = s.fault := rfl
@[simp] theorem tookAsleep_faultCause : s.tookAsleep.faultCause = s.faultCause := rfl
@[simp] theorem tookAsleep_lastRx : s.tookAsleep.lastRx = s.lastRx := rfl
@[simp] theorem tookAsleep_irqEn : s.tookAsleep.irqEn = s.irqEn := rfl
@[simp] theorem tookAsleep_irqPend : s.tookAsleep.irqPend = s.irqPend := rfl
@[simp] theorem tookAsleep_waitCnt : s.tookAsleep.waitCnt = s.waitCnt := rfl
@[simp] theorem tookAsleep_initDone : s.tookAsleep.initDone = s.initDone := rfl
@[simp] theorem tookAsleep_txqCount : s.tookAsleep.txqCount = s.txqCount := rfl
@[simp] theorem tookAsleep_txq : s.tookAsleep.txq = s.txq := rfl
@[simp] theorem tookAsleep_rxbuf : s.tookAsleep.rxbuf = s.rxbuf := rfl
@[simp] theorem tookAsleep_busTrace : s.tookAsleep.busTrace = s.busTrace := rfl
@[simp] theorem tookAsleep_sinkLog : s.tookAsleep.sinkLog = s.sinkLog := rfl
@[simp] theorem tookAsleep_cfg : s.tookAsleep.cfg = s.cfg := rfl
@[simp] theorem tookAsleep_hostLog : s.tookAsleep.hostLog = s.hostLog := rfl
@[simp] theorem tookAsleep_callReturn : s.tookAsleep.callReturn = s.callReturn := rfl
@[simp] theorem tookAsleep_hung : s.tookAsleep.hung = s.hung := rfl
@[simp] theorem tookAsleep_openBus : s.tookAsleep.openBus = s.openBus := rfl
@[simp] theorem tookAsleep_inputs : s.tookAsleep.inputs = s.inputs := rfl
@[simp] theorem tookAsleep_statusAnswers : s.tookAsleep.statusAnswers = s.statusAnswers := rfl
@[simp] theorem tookAsleep_dataAnswers : s.tookAsleep.dataAnswers = s.dataAnswers := rfl
@[simp] theorem tookAsleep_asleepAnswers : s.tookAsleep.asleepAnswers = s.asleepAnswers.drop 1 := rfl
@[simp] theorem tookAsleep_pollAnswers : s.tookAsleep.pollAnswers = s.pollAnswers := rfl
@[simp] theorem tookAsleep_roomAnswers : s.tookAsleep.roomAnswers = s.roomAnswers := rfl

/-! ### tookPolls -/

@[simp] theorem tookPolls_linkState : s.tookPolls.linkState = s.linkState := rfl
@[simp] theorem tookPolls_fault : s.tookPolls.fault = s.fault := rfl
@[simp] theorem tookPolls_faultCause : s.tookPolls.faultCause = s.faultCause := rfl
@[simp] theorem tookPolls_lastRx : s.tookPolls.lastRx = s.lastRx := rfl
@[simp] theorem tookPolls_irqEn : s.tookPolls.irqEn = s.irqEn := rfl
@[simp] theorem tookPolls_irqPend : s.tookPolls.irqPend = s.irqPend := rfl
@[simp] theorem tookPolls_waitCnt : s.tookPolls.waitCnt = s.waitCnt := rfl
@[simp] theorem tookPolls_initDone : s.tookPolls.initDone = s.initDone := rfl
@[simp] theorem tookPolls_txqCount : s.tookPolls.txqCount = s.txqCount := rfl
@[simp] theorem tookPolls_txq : s.tookPolls.txq = s.txq := rfl
@[simp] theorem tookPolls_rxbuf : s.tookPolls.rxbuf = s.rxbuf := rfl
@[simp] theorem tookPolls_busTrace : s.tookPolls.busTrace = s.busTrace := rfl
@[simp] theorem tookPolls_sinkLog : s.tookPolls.sinkLog = s.sinkLog := rfl
@[simp] theorem tookPolls_cfg : s.tookPolls.cfg = s.cfg := rfl
@[simp] theorem tookPolls_hostLog : s.tookPolls.hostLog = s.hostLog := rfl
@[simp] theorem tookPolls_callReturn : s.tookPolls.callReturn = s.callReturn := rfl
@[simp] theorem tookPolls_hung : s.tookPolls.hung = s.hung := rfl
@[simp] theorem tookPolls_openBus : s.tookPolls.openBus = s.openBus := rfl
@[simp] theorem tookPolls_inputs : s.tookPolls.inputs = s.inputs := rfl
@[simp] theorem tookPolls_statusAnswers : s.tookPolls.statusAnswers = s.statusAnswers := rfl
@[simp] theorem tookPolls_dataAnswers : s.tookPolls.dataAnswers = s.dataAnswers := rfl
@[simp] theorem tookPolls_asleepAnswers : s.tookPolls.asleepAnswers = s.asleepAnswers := rfl
@[simp] theorem tookPolls_pollAnswers : s.tookPolls.pollAnswers = s.pollAnswers.drop 1 := rfl
@[simp] theorem tookPolls_roomAnswers : s.tookPolls.roomAnswers = s.roomAnswers := rfl

/-! ### tookRoom -/

@[simp] theorem tookRoom_linkState : s.tookRoom.linkState = s.linkState := rfl
@[simp] theorem tookRoom_fault : s.tookRoom.fault = s.fault := rfl
@[simp] theorem tookRoom_faultCause : s.tookRoom.faultCause = s.faultCause := rfl
@[simp] theorem tookRoom_lastRx : s.tookRoom.lastRx = s.lastRx := rfl
@[simp] theorem tookRoom_irqEn : s.tookRoom.irqEn = s.irqEn := rfl
@[simp] theorem tookRoom_irqPend : s.tookRoom.irqPend = s.irqPend := rfl
@[simp] theorem tookRoom_waitCnt : s.tookRoom.waitCnt = s.waitCnt := rfl
@[simp] theorem tookRoom_initDone : s.tookRoom.initDone = s.initDone := rfl
@[simp] theorem tookRoom_txqCount : s.tookRoom.txqCount = s.txqCount := rfl
@[simp] theorem tookRoom_txq : s.tookRoom.txq = s.txq := rfl
@[simp] theorem tookRoom_rxbuf : s.tookRoom.rxbuf = s.rxbuf := rfl
@[simp] theorem tookRoom_busTrace : s.tookRoom.busTrace = s.busTrace := rfl
@[simp] theorem tookRoom_sinkLog : s.tookRoom.sinkLog = s.sinkLog := rfl
@[simp] theorem tookRoom_cfg : s.tookRoom.cfg = s.cfg := rfl
@[simp] theorem tookRoom_hostLog : s.tookRoom.hostLog = s.hostLog := rfl
@[simp] theorem tookRoom_callReturn : s.tookRoom.callReturn = s.callReturn := rfl
@[simp] theorem tookRoom_hung : s.tookRoom.hung = s.hung := rfl
@[simp] theorem tookRoom_openBus : s.tookRoom.openBus = s.openBus := rfl
@[simp] theorem tookRoom_inputs : s.tookRoom.inputs = s.inputs := rfl
@[simp] theorem tookRoom_statusAnswers : s.tookRoom.statusAnswers = s.statusAnswers := rfl
@[simp] theorem tookRoom_dataAnswers : s.tookRoom.dataAnswers = s.dataAnswers := rfl
@[simp] theorem tookRoom_asleepAnswers : s.tookRoom.asleepAnswers = s.asleepAnswers := rfl
@[simp] theorem tookRoom_pollAnswers : s.tookRoom.pollAnswers = s.pollAnswers := rfl
@[simp] theorem tookRoom_roomAnswers : s.tookRoom.roomAnswers = s.roomAnswers.drop 1 := rfl

/-! ### faultAction -/

@[simp] theorem faultAction_linkState (c : FaultCause) : (faultAction c s).linkState =
    LinkState.fault := rfl
@[simp] theorem faultAction_fault (c : FaultCause) : (faultAction c s).fault = true := rfl
@[simp] theorem faultAction_faultCause (c : FaultCause) : (faultAction c s).faultCause =
    if s.fault then s.faultCause else some c := rfl
@[simp] theorem faultAction_lastRx (c : FaultCause) : (faultAction c s).lastRx = s.lastRx := rfl
@[simp] theorem faultAction_irqEn (c : FaultCause) : (faultAction c s).irqEn = false := rfl
@[simp] theorem faultAction_irqPend (c : FaultCause) : (faultAction c s).irqPend = s.irqPend := rfl
@[simp] theorem faultAction_waitCnt (c : FaultCause) : (faultAction c s).waitCnt = s.waitCnt := rfl
@[simp] theorem faultAction_initDone (c : FaultCause) : (faultAction c s).initDone = s.initDone := rfl
@[simp] theorem faultAction_txqCount (c : FaultCause) : (faultAction c s).txqCount = s.txqCount := rfl
@[simp] theorem faultAction_txq (c : FaultCause) : (faultAction c s).txq = s.txq := rfl
@[simp] theorem faultAction_rxbuf (c : FaultCause) : (faultAction c s).rxbuf = s.rxbuf := rfl
@[simp] theorem faultAction_busTrace (c : FaultCause) : (faultAction c s).busTrace = s.busTrace := rfl
@[simp] theorem faultAction_sinkLog (c : FaultCause) : (faultAction c s).sinkLog = s.sinkLog := rfl
@[simp] theorem faultAction_cfg (c : FaultCause) : (faultAction c s).cfg = s.cfg := rfl
@[simp] theorem faultAction_hostLog (c : FaultCause) : (faultAction c s).hostLog = s.hostLog := rfl
@[simp] theorem faultAction_callReturn (c : FaultCause) : (faultAction c s).callReturn =
    s.callReturn := rfl
@[simp] theorem faultAction_hung (c : FaultCause) : (faultAction c s).hung = s.hung := rfl
@[simp] theorem faultAction_openBus (c : FaultCause) : (faultAction c s).openBus = s.openBus := rfl
@[simp] theorem faultAction_inputs (c : FaultCause) : (faultAction c s).inputs = s.inputs := rfl
@[simp] theorem faultAction_statusAnswers (c : FaultCause) : (faultAction c s).statusAnswers =
    s.statusAnswers := rfl
@[simp] theorem faultAction_dataAnswers (c : FaultCause) : (faultAction c s).dataAnswers =
    s.dataAnswers := rfl
@[simp] theorem faultAction_asleepAnswers (c : FaultCause) : (faultAction c s).asleepAnswers =
    s.asleepAnswers := rfl
@[simp] theorem faultAction_pollAnswers (c : FaultCause) : (faultAction c s).pollAnswers =
    s.pollAnswers := rfl
@[simp] theorem faultAction_roomAnswers (c : FaultCause) : (faultAction c s).roomAnswers =
    s.roomAnswers := rfl

/-! ### setLink -/

@[simp] theorem setLink_linkState (l : LinkState) : (setLink l s).linkState = l := rfl
@[simp] theorem setLink_fault (l : LinkState) : (setLink l s).fault = s.fault := rfl
@[simp] theorem setLink_faultCause (l : LinkState) : (setLink l s).faultCause = s.faultCause := rfl
@[simp] theorem setLink_lastRx (l : LinkState) : (setLink l s).lastRx = s.lastRx := rfl
@[simp] theorem setLink_irqEn (l : LinkState) : (setLink l s).irqEn = s.irqEn := rfl
@[simp] theorem setLink_irqPend (l : LinkState) : (setLink l s).irqPend = s.irqPend := rfl
@[simp] theorem setLink_waitCnt (l : LinkState) : (setLink l s).waitCnt = s.waitCnt := rfl
@[simp] theorem setLink_initDone (l : LinkState) : (setLink l s).initDone = s.initDone := rfl
@[simp] theorem setLink_txqCount (l : LinkState) : (setLink l s).txqCount = s.txqCount := rfl
@[simp] theorem setLink_txq (l : LinkState) : (setLink l s).txq = s.txq := rfl
@[simp] theorem setLink_rxbuf (l : LinkState) : (setLink l s).rxbuf = s.rxbuf := rfl
@[simp] theorem setLink_busTrace (l : LinkState) : (setLink l s).busTrace = s.busTrace := rfl
@[simp] theorem setLink_sinkLog (l : LinkState) : (setLink l s).sinkLog = s.sinkLog := rfl
@[simp] theorem setLink_cfg (l : LinkState) : (setLink l s).cfg = s.cfg := rfl
@[simp] theorem setLink_hostLog (l : LinkState) : (setLink l s).hostLog = s.hostLog := rfl
@[simp] theorem setLink_callReturn (l : LinkState) : (setLink l s).callReturn = s.callReturn := rfl
@[simp] theorem setLink_hung (l : LinkState) : (setLink l s).hung = s.hung := rfl
@[simp] theorem setLink_openBus (l : LinkState) : (setLink l s).openBus = s.openBus := rfl
@[simp] theorem setLink_inputs (l : LinkState) : (setLink l s).inputs = s.inputs := rfl
@[simp] theorem setLink_statusAnswers (l : LinkState) : (setLink l s).statusAnswers =
    s.statusAnswers := rfl
@[simp] theorem setLink_dataAnswers (l : LinkState) : (setLink l s).dataAnswers = s.dataAnswers := rfl
@[simp] theorem setLink_asleepAnswers (l : LinkState) : (setLink l s).asleepAnswers =
    s.asleepAnswers := rfl
@[simp] theorem setLink_pollAnswers (l : LinkState) : (setLink l s).pollAnswers = s.pollAnswers := rfl
@[simp] theorem setLink_roomAnswers (l : LinkState) : (setLink l s).roomAnswers = s.roomAnswers := rfl

/-! ### arm -/

@[simp] theorem arm_linkState : (arm s).linkState = s.linkState := rfl
@[simp] theorem arm_fault : (arm s).fault = s.fault := rfl
@[simp] theorem arm_faultCause : (arm s).faultCause = s.faultCause := rfl
@[simp] theorem arm_lastRx : (arm s).lastRx = s.lastRx := rfl
@[simp] theorem arm_irqEn : (arm s).irqEn = true := rfl
@[simp] theorem arm_irqPend : (arm s).irqPend = false := rfl
@[simp] theorem arm_waitCnt : (arm s).waitCnt = s.waitCnt := rfl
@[simp] theorem arm_initDone : (arm s).initDone = s.initDone := rfl
@[simp] theorem arm_txqCount : (arm s).txqCount = s.txqCount := rfl
@[simp] theorem arm_txq : (arm s).txq = s.txq := rfl
@[simp] theorem arm_rxbuf : (arm s).rxbuf = s.rxbuf := rfl
@[simp] theorem arm_busTrace : (arm s).busTrace = s.busTrace := rfl
@[simp] theorem arm_sinkLog : (arm s).sinkLog = s.sinkLog := rfl
@[simp] theorem arm_cfg : (arm s).cfg = s.cfg := rfl
@[simp] theorem arm_hostLog : (arm s).hostLog = s.hostLog := rfl
@[simp] theorem arm_callReturn : (arm s).callReturn = s.callReturn := rfl
@[simp] theorem arm_hung : (arm s).hung = s.hung := rfl
@[simp] theorem arm_openBus : (arm s).openBus = s.openBus := rfl
@[simp] theorem arm_inputs : (arm s).inputs = s.inputs := rfl
@[simp] theorem arm_statusAnswers : (arm s).statusAnswers = s.statusAnswers := rfl
@[simp] theorem arm_dataAnswers : (arm s).dataAnswers = s.dataAnswers := rfl
@[simp] theorem arm_asleepAnswers : (arm s).asleepAnswers = s.asleepAnswers := rfl
@[simp] theorem arm_pollAnswers : (arm s).pollAnswers = s.pollAnswers := rfl
@[simp] theorem arm_roomAnswers : (arm s).roomAnswers = s.roomAnswers := rfl

/-! ### disarm -/

@[simp] theorem disarm_linkState : (disarm s).linkState = s.linkState := rfl
@[simp] theorem disarm_fault : (disarm s).fault = s.fault := rfl
@[simp] theorem disarm_faultCause : (disarm s).faultCause = s.faultCause := rfl
@[simp] theorem disarm_lastRx : (disarm s).lastRx = s.lastRx := rfl
@[simp] theorem disarm_irqEn : (disarm s).irqEn = false := rfl
@[simp] theorem disarm_irqPend : (disarm s).irqPend = s.irqPend := rfl
@[simp] theorem disarm_waitCnt : (disarm s).waitCnt = s.waitCnt := rfl
@[simp] theorem disarm_initDone : (disarm s).initDone = s.initDone := rfl
@[simp] theorem disarm_txqCount : (disarm s).txqCount = s.txqCount := rfl
@[simp] theorem disarm_txq : (disarm s).txq = s.txq := rfl
@[simp] theorem disarm_rxbuf : (disarm s).rxbuf = s.rxbuf := rfl
@[simp] theorem disarm_busTrace : (disarm s).busTrace = s.busTrace := rfl
@[simp] theorem disarm_sinkLog : (disarm s).sinkLog = s.sinkLog := rfl
@[simp] theorem disarm_cfg : (disarm s).cfg = s.cfg := rfl
@[simp] theorem disarm_hostLog : (disarm s).hostLog = s.hostLog := rfl
@[simp] theorem disarm_callReturn : (disarm s).callReturn = s.callReturn := rfl
@[simp] theorem disarm_hung : (disarm s).hung = s.hung := rfl
@[simp] theorem disarm_openBus : (disarm s).openBus = s.openBus := rfl
@[simp] theorem disarm_inputs : (disarm s).inputs = s.inputs := rfl
@[simp] theorem disarm_statusAnswers : (disarm s).statusAnswers = s.statusAnswers := rfl
@[simp] theorem disarm_dataAnswers : (disarm s).dataAnswers = s.dataAnswers := rfl
@[simp] theorem disarm_asleepAnswers : (disarm s).asleepAnswers = s.asleepAnswers := rfl
@[simp] theorem disarm_pollAnswers : (disarm s).pollAnswers = s.pollAnswers := rfl
@[simp] theorem disarm_roomAnswers : (disarm s).roomAnswers = s.roomAnswers := rfl

/-! ### setWaitCnt -/

@[simp] theorem setWaitCnt_linkState (v : Byte) : (setWaitCnt v s).linkState = s.linkState := rfl
@[simp] theorem setWaitCnt_fault (v : Byte) : (setWaitCnt v s).fault = s.fault := rfl
@[simp] theorem setWaitCnt_faultCause (v : Byte) : (setWaitCnt v s).faultCause = s.faultCause := rfl
@[simp] theorem setWaitCnt_lastRx (v : Byte) : (setWaitCnt v s).lastRx = s.lastRx := rfl
@[simp] theorem setWaitCnt_irqEn (v : Byte) : (setWaitCnt v s).irqEn = s.irqEn := rfl
@[simp] theorem setWaitCnt_irqPend (v : Byte) : (setWaitCnt v s).irqPend = s.irqPend := rfl
@[simp] theorem setWaitCnt_waitCnt (v : Byte) : (setWaitCnt v s).waitCnt = v := rfl
@[simp] theorem setWaitCnt_initDone (v : Byte) : (setWaitCnt v s).initDone = s.initDone := rfl
@[simp] theorem setWaitCnt_txqCount (v : Byte) : (setWaitCnt v s).txqCount = s.txqCount := rfl
@[simp] theorem setWaitCnt_txq (v : Byte) : (setWaitCnt v s).txq = s.txq := rfl
@[simp] theorem setWaitCnt_rxbuf (v : Byte) : (setWaitCnt v s).rxbuf = s.rxbuf := rfl
@[simp] theorem setWaitCnt_busTrace (v : Byte) : (setWaitCnt v s).busTrace = s.busTrace := rfl
@[simp] theorem setWaitCnt_sinkLog (v : Byte) : (setWaitCnt v s).sinkLog = s.sinkLog := rfl
@[simp] theorem setWaitCnt_cfg (v : Byte) : (setWaitCnt v s).cfg = s.cfg := rfl
@[simp] theorem setWaitCnt_hostLog (v : Byte) : (setWaitCnt v s).hostLog = s.hostLog := rfl
@[simp] theorem setWaitCnt_callReturn (v : Byte) : (setWaitCnt v s).callReturn = s.callReturn := rfl
@[simp] theorem setWaitCnt_hung (v : Byte) : (setWaitCnt v s).hung = s.hung := rfl
@[simp] theorem setWaitCnt_openBus (v : Byte) : (setWaitCnt v s).openBus = s.openBus := rfl
@[simp] theorem setWaitCnt_inputs (v : Byte) : (setWaitCnt v s).inputs = s.inputs := rfl
@[simp] theorem setWaitCnt_statusAnswers (v : Byte) : (setWaitCnt v s).statusAnswers =
    s.statusAnswers := rfl
@[simp] theorem setWaitCnt_dataAnswers (v : Byte) : (setWaitCnt v s).dataAnswers = s.dataAnswers := rfl
@[simp] theorem setWaitCnt_asleepAnswers (v : Byte) : (setWaitCnt v s).asleepAnswers =
    s.asleepAnswers := rfl
@[simp] theorem setWaitCnt_pollAnswers (v : Byte) : (setWaitCnt v s).pollAnswers = s.pollAnswers := rfl
@[simp] theorem setWaitCnt_roomAnswers (v : Byte) : (setWaitCnt v s).roomAnswers = s.roomAnswers := rfl

/-! ### setInitDone -/

@[simp] theorem setInitDone_linkState : (setInitDone s).linkState = s.linkState := rfl
@[simp] theorem setInitDone_fault : (setInitDone s).fault = s.fault := rfl
@[simp] theorem setInitDone_faultCause : (setInitDone s).faultCause = s.faultCause := rfl
@[simp] theorem setInitDone_lastRx : (setInitDone s).lastRx = s.lastRx := rfl
@[simp] theorem setInitDone_irqEn : (setInitDone s).irqEn = s.irqEn := rfl
@[simp] theorem setInitDone_irqPend : (setInitDone s).irqPend = s.irqPend := rfl
@[simp] theorem setInitDone_waitCnt : (setInitDone s).waitCnt = s.waitCnt := rfl
@[simp] theorem setInitDone_initDone : (setInitDone s).initDone = true := rfl
@[simp] theorem setInitDone_txqCount : (setInitDone s).txqCount = s.txqCount := rfl
@[simp] theorem setInitDone_txq : (setInitDone s).txq = s.txq := rfl
@[simp] theorem setInitDone_rxbuf : (setInitDone s).rxbuf = s.rxbuf := rfl
@[simp] theorem setInitDone_busTrace : (setInitDone s).busTrace = s.busTrace := rfl
@[simp] theorem setInitDone_sinkLog : (setInitDone s).sinkLog = s.sinkLog := rfl
@[simp] theorem setInitDone_cfg : (setInitDone s).cfg = s.cfg := rfl
@[simp] theorem setInitDone_hostLog : (setInitDone s).hostLog = s.hostLog := rfl
@[simp] theorem setInitDone_callReturn : (setInitDone s).callReturn = s.callReturn := rfl
@[simp] theorem setInitDone_hung : (setInitDone s).hung = s.hung := rfl
@[simp] theorem setInitDone_openBus : (setInitDone s).openBus = s.openBus := rfl
@[simp] theorem setInitDone_inputs : (setInitDone s).inputs = s.inputs := rfl
@[simp] theorem setInitDone_statusAnswers : (setInitDone s).statusAnswers = s.statusAnswers := rfl
@[simp] theorem setInitDone_dataAnswers : (setInitDone s).dataAnswers = s.dataAnswers := rfl
@[simp] theorem setInitDone_asleepAnswers : (setInitDone s).asleepAnswers = s.asleepAnswers := rfl
@[simp] theorem setInitDone_pollAnswers : (setInitDone s).pollAnswers = s.pollAnswers := rfl
@[simp] theorem setInitDone_roomAnswers : (setInitDone s).roomAnswers = s.roomAnswers := rfl

/-! ### setLastRx -/

@[simp] theorem setLastRx_linkState (o : RxOutcome) : (setLastRx o s).linkState = s.linkState := rfl
@[simp] theorem setLastRx_fault (o : RxOutcome) : (setLastRx o s).fault = s.fault := rfl
@[simp] theorem setLastRx_faultCause (o : RxOutcome) : (setLastRx o s).faultCause = s.faultCause := rfl
@[simp] theorem setLastRx_lastRx (o : RxOutcome) : (setLastRx o s).lastRx = some o := rfl
@[simp] theorem setLastRx_irqEn (o : RxOutcome) : (setLastRx o s).irqEn = s.irqEn := rfl
@[simp] theorem setLastRx_irqPend (o : RxOutcome) : (setLastRx o s).irqPend = s.irqPend := rfl
@[simp] theorem setLastRx_waitCnt (o : RxOutcome) : (setLastRx o s).waitCnt = s.waitCnt := rfl
@[simp] theorem setLastRx_initDone (o : RxOutcome) : (setLastRx o s).initDone = s.initDone := rfl
@[simp] theorem setLastRx_txqCount (o : RxOutcome) : (setLastRx o s).txqCount = s.txqCount := rfl
@[simp] theorem setLastRx_txq (o : RxOutcome) : (setLastRx o s).txq = s.txq := rfl
@[simp] theorem setLastRx_rxbuf (o : RxOutcome) : (setLastRx o s).rxbuf = s.rxbuf := rfl
@[simp] theorem setLastRx_busTrace (o : RxOutcome) : (setLastRx o s).busTrace = s.busTrace := rfl
@[simp] theorem setLastRx_sinkLog (o : RxOutcome) : (setLastRx o s).sinkLog = s.sinkLog := rfl
@[simp] theorem setLastRx_cfg (o : RxOutcome) : (setLastRx o s).cfg = s.cfg := rfl
@[simp] theorem setLastRx_hostLog (o : RxOutcome) : (setLastRx o s).hostLog = s.hostLog := rfl
@[simp] theorem setLastRx_callReturn (o : RxOutcome) : (setLastRx o s).callReturn = s.callReturn := rfl
@[simp] theorem setLastRx_hung (o : RxOutcome) : (setLastRx o s).hung = s.hung := rfl
@[simp] theorem setLastRx_openBus (o : RxOutcome) : (setLastRx o s).openBus = s.openBus := rfl
@[simp] theorem setLastRx_inputs (o : RxOutcome) : (setLastRx o s).inputs = s.inputs := rfl
@[simp] theorem setLastRx_statusAnswers (o : RxOutcome) : (setLastRx o s).statusAnswers =
    s.statusAnswers := rfl
@[simp] theorem setLastRx_dataAnswers (o : RxOutcome) : (setLastRx o s).dataAnswers =
    s.dataAnswers := rfl
@[simp] theorem setLastRx_asleepAnswers (o : RxOutcome) : (setLastRx o s).asleepAnswers =
    s.asleepAnswers := rfl
@[simp] theorem setLastRx_pollAnswers (o : RxOutcome) : (setLastRx o s).pollAnswers =
    s.pollAnswers := rfl
@[simp] theorem setLastRx_roomAnswers (o : RxOutcome) : (setLastRx o s).roomAnswers =
    s.roomAnswers := rfl

/-! ### latchEdge -/

@[simp] theorem latchEdge_linkState : (latchEdge s).linkState = s.linkState := rfl
@[simp] theorem latchEdge_fault : (latchEdge s).fault = s.fault := rfl
@[simp] theorem latchEdge_faultCause : (latchEdge s).faultCause = s.faultCause := rfl
@[simp] theorem latchEdge_lastRx : (latchEdge s).lastRx = s.lastRx := rfl
@[simp] theorem latchEdge_irqEn : (latchEdge s).irqEn = s.irqEn := rfl
@[simp] theorem latchEdge_irqPend : (latchEdge s).irqPend = true := rfl
@[simp] theorem latchEdge_waitCnt : (latchEdge s).waitCnt = s.waitCnt := rfl
@[simp] theorem latchEdge_initDone : (latchEdge s).initDone = s.initDone := rfl
@[simp] theorem latchEdge_txqCount : (latchEdge s).txqCount = s.txqCount := rfl
@[simp] theorem latchEdge_txq : (latchEdge s).txq = s.txq := rfl
@[simp] theorem latchEdge_rxbuf : (latchEdge s).rxbuf = s.rxbuf := rfl
@[simp] theorem latchEdge_busTrace : (latchEdge s).busTrace = s.busTrace := rfl
@[simp] theorem latchEdge_sinkLog : (latchEdge s).sinkLog = s.sinkLog := rfl
@[simp] theorem latchEdge_cfg : (latchEdge s).cfg = s.cfg := rfl
@[simp] theorem latchEdge_hostLog : (latchEdge s).hostLog = s.hostLog := rfl
@[simp] theorem latchEdge_callReturn : (latchEdge s).callReturn = s.callReturn := rfl
@[simp] theorem latchEdge_hung : (latchEdge s).hung = s.hung := rfl
@[simp] theorem latchEdge_openBus : (latchEdge s).openBus = s.openBus := rfl
@[simp] theorem latchEdge_inputs : (latchEdge s).inputs = s.inputs := rfl
@[simp] theorem latchEdge_statusAnswers : (latchEdge s).statusAnswers = s.statusAnswers := rfl
@[simp] theorem latchEdge_dataAnswers : (latchEdge s).dataAnswers = s.dataAnswers := rfl
@[simp] theorem latchEdge_asleepAnswers : (latchEdge s).asleepAnswers = s.asleepAnswers := rfl
@[simp] theorem latchEdge_pollAnswers : (latchEdge s).pollAnswers = s.pollAnswers := rfl
@[simp] theorem latchEdge_roomAnswers : (latchEdge s).roomAnswers = s.roomAnswers := rfl

/-! ### handlerEntry -/

@[simp] theorem handlerEntry_linkState : (handlerEntry s).linkState = s.linkState := rfl
@[simp] theorem handlerEntry_fault : (handlerEntry s).fault = s.fault := rfl
@[simp] theorem handlerEntry_faultCause : (handlerEntry s).faultCause = s.faultCause := rfl
@[simp] theorem handlerEntry_lastRx : (handlerEntry s).lastRx = s.lastRx := rfl
@[simp] theorem handlerEntry_irqEn : (handlerEntry s).irqEn = s.irqEn := rfl
@[simp] theorem handlerEntry_irqPend : (handlerEntry s).irqPend = false := rfl
@[simp] theorem handlerEntry_waitCnt : (handlerEntry s).waitCnt = s.waitCnt := rfl
@[simp] theorem handlerEntry_initDone : (handlerEntry s).initDone = s.initDone := rfl
@[simp] theorem handlerEntry_txqCount : (handlerEntry s).txqCount = s.txqCount := rfl
@[simp] theorem handlerEntry_txq : (handlerEntry s).txq = s.txq := rfl
@[simp] theorem handlerEntry_rxbuf : (handlerEntry s).rxbuf = s.rxbuf := rfl
@[simp] theorem handlerEntry_busTrace : (handlerEntry s).busTrace = s.busTrace := rfl
@[simp] theorem handlerEntry_sinkLog : (handlerEntry s).sinkLog = s.sinkLog := rfl
@[simp] theorem handlerEntry_cfg : (handlerEntry s).cfg = s.cfg := rfl
@[simp] theorem handlerEntry_hostLog : (handlerEntry s).hostLog = s.hostLog := rfl
@[simp] theorem handlerEntry_callReturn : (handlerEntry s).callReturn = s.callReturn := rfl
@[simp] theorem handlerEntry_hung : (handlerEntry s).hung = s.hung := rfl
@[simp] theorem handlerEntry_openBus : (handlerEntry s).openBus = s.openBus := rfl
@[simp] theorem handlerEntry_inputs : (handlerEntry s).inputs = s.inputs := rfl
@[simp] theorem handlerEntry_statusAnswers : (handlerEntry s).statusAnswers = s.statusAnswers := rfl
@[simp] theorem handlerEntry_dataAnswers : (handlerEntry s).dataAnswers = s.dataAnswers := rfl
@[simp] theorem handlerEntry_asleepAnswers : (handlerEntry s).asleepAnswers = s.asleepAnswers := rfl
@[simp] theorem handlerEntry_pollAnswers : (handlerEntry s).pollAnswers = s.pollAnswers := rfl
@[simp] theorem handlerEntry_roomAnswers : (handlerEntry s).roomAnswers = s.roomAnswers := rfl

/-! ### handlerReturn -/

@[simp] theorem handlerReturn_linkState : (handlerReturn s).linkState = s.linkState := rfl
@[simp] theorem handlerReturn_fault : (handlerReturn s).fault = s.fault := rfl
@[simp] theorem handlerReturn_faultCause : (handlerReturn s).faultCause = s.faultCause := rfl
@[simp] theorem handlerReturn_lastRx : (handlerReturn s).lastRx = s.lastRx := rfl
@[simp] theorem handlerReturn_irqEn : (handlerReturn s).irqEn = false := rfl
@[simp] theorem handlerReturn_irqPend : (handlerReturn s).irqPend = s.irqPend := rfl
@[simp] theorem handlerReturn_waitCnt : (handlerReturn s).waitCnt = s.waitCnt := rfl
@[simp] theorem handlerReturn_initDone : (handlerReturn s).initDone = s.initDone := rfl
@[simp] theorem handlerReturn_txqCount : (handlerReturn s).txqCount = s.txqCount := rfl
@[simp] theorem handlerReturn_txq : (handlerReturn s).txq = s.txq := rfl
@[simp] theorem handlerReturn_rxbuf : (handlerReturn s).rxbuf = s.rxbuf := rfl
@[simp] theorem handlerReturn_busTrace : (handlerReturn s).busTrace = s.busTrace := rfl
@[simp] theorem handlerReturn_sinkLog : (handlerReturn s).sinkLog = s.sinkLog := rfl
@[simp] theorem handlerReturn_cfg : (handlerReturn s).cfg = s.cfg := rfl
@[simp] theorem handlerReturn_hostLog : (handlerReturn s).hostLog = s.hostLog := rfl
@[simp] theorem handlerReturn_callReturn : (handlerReturn s).callReturn = s.callReturn := rfl
@[simp] theorem handlerReturn_hung : (handlerReturn s).hung = s.hung := rfl
@[simp] theorem handlerReturn_openBus : (handlerReturn s).openBus = s.openBus := rfl
@[simp] theorem handlerReturn_inputs : (handlerReturn s).inputs = s.inputs := rfl
@[simp] theorem handlerReturn_statusAnswers : (handlerReturn s).statusAnswers = s.statusAnswers := rfl
@[simp] theorem handlerReturn_dataAnswers : (handlerReturn s).dataAnswers = s.dataAnswers := rfl
@[simp] theorem handlerReturn_asleepAnswers : (handlerReturn s).asleepAnswers = s.asleepAnswers := rfl
@[simp] theorem handlerReturn_pollAnswers : (handlerReturn s).pollAnswers = s.pollAnswers := rfl
@[simp] theorem handlerReturn_roomAnswers : (handlerReturn s).roomAnswers = s.roomAnswers := rfl

/-! ### hang -/

@[simp] theorem hang_linkState : (hang s).linkState = s.linkState := rfl
@[simp] theorem hang_fault : (hang s).fault = s.fault := rfl
@[simp] theorem hang_faultCause : (hang s).faultCause = s.faultCause := rfl
@[simp] theorem hang_lastRx : (hang s).lastRx = s.lastRx := rfl
@[simp] theorem hang_irqEn : (hang s).irqEn = s.irqEn := rfl
@[simp] theorem hang_irqPend : (hang s).irqPend = s.irqPend := rfl
@[simp] theorem hang_waitCnt : (hang s).waitCnt = s.waitCnt := rfl
@[simp] theorem hang_initDone : (hang s).initDone = s.initDone := rfl
@[simp] theorem hang_txqCount : (hang s).txqCount = s.txqCount := rfl
@[simp] theorem hang_txq : (hang s).txq = s.txq := rfl
@[simp] theorem hang_rxbuf : (hang s).rxbuf = s.rxbuf := rfl
@[simp] theorem hang_busTrace : (hang s).busTrace = s.busTrace := rfl
@[simp] theorem hang_sinkLog : (hang s).sinkLog = s.sinkLog := rfl
@[simp] theorem hang_cfg : (hang s).cfg = s.cfg := rfl
@[simp] theorem hang_hostLog : (hang s).hostLog = s.hostLog := rfl
@[simp] theorem hang_callReturn : (hang s).callReturn = s.callReturn := rfl
@[simp] theorem hang_hung : (hang s).hung = true := rfl
@[simp] theorem hang_openBus : (hang s).openBus = s.openBus := rfl
@[simp] theorem hang_inputs : (hang s).inputs = s.inputs := rfl
@[simp] theorem hang_statusAnswers : (hang s).statusAnswers = s.statusAnswers := rfl
@[simp] theorem hang_dataAnswers : (hang s).dataAnswers = s.dataAnswers := rfl
@[simp] theorem hang_asleepAnswers : (hang s).asleepAnswers = s.asleepAnswers := rfl
@[simp] theorem hang_pollAnswers : (hang s).pollAnswers = s.pollAnswers := rfl
@[simp] theorem hang_roomAnswers : (hang s).roomAnswers = s.roomAnswers := rfl

/-! ### reply -/

@[simp] theorem reply_linkState (cmd : Instr) (code : ResultCode) (v : Word32) : (reply cmd code v s).linkState =
    s.linkState := rfl
@[simp] theorem reply_fault (cmd : Instr) (code : ResultCode) (v : Word32) : (reply cmd code v s).fault =
    s.fault := rfl
@[simp] theorem reply_faultCause (cmd : Instr) (code : ResultCode) (v : Word32) : (reply cmd code v s).faultCause =
    s.faultCause := rfl
@[simp] theorem reply_lastRx (cmd : Instr) (code : ResultCode) (v : Word32) : (reply cmd code v s).lastRx =
    s.lastRx := rfl
@[simp] theorem reply_irqEn (cmd : Instr) (code : ResultCode) (v : Word32) : (reply cmd code v s).irqEn =
    s.irqEn := rfl
@[simp] theorem reply_irqPend (cmd : Instr) (code : ResultCode) (v : Word32) : (reply cmd code v s).irqPend =
    s.irqPend := rfl
@[simp] theorem reply_waitCnt (cmd : Instr) (code : ResultCode) (v : Word32) : (reply cmd code v s).waitCnt =
    s.waitCnt := rfl
@[simp] theorem reply_initDone (cmd : Instr) (code : ResultCode) (v : Word32) : (reply cmd code v s).initDone =
    s.initDone := rfl
@[simp] theorem reply_txqCount (cmd : Instr) (code : ResultCode) (v : Word32) : (reply cmd code v s).txqCount =
    s.txqCount := rfl
@[simp] theorem reply_txq (cmd : Instr) (code : ResultCode) (v : Word32) : (reply cmd code v s).txq =
    s.txq := rfl
@[simp] theorem reply_rxbuf (cmd : Instr) (code : ResultCode) (v : Word32) : (reply cmd code v s).rxbuf =
    s.rxbuf := rfl
@[simp] theorem reply_busTrace (cmd : Instr) (code : ResultCode) (v : Word32) : (reply cmd code v s).busTrace =
    s.busTrace := rfl
@[simp] theorem reply_sinkLog (cmd : Instr) (code : ResultCode) (v : Word32) : (reply cmd code v s).sinkLog =
    s.sinkLog := rfl
@[simp] theorem reply_cfg (cmd : Instr) (code : ResultCode) (v : Word32) : (reply cmd code v s).cfg =
    s.cfg := rfl
@[simp] theorem reply_hostLog (cmd : Instr) (code : ResultCode) (v : Word32) : (reply cmd code v s).hostLog =
    s.hostLog ++ [{ cmd := cmd, result := { code := code, value := v } }] := rfl
@[simp] theorem reply_callReturn (cmd : Instr) (code : ResultCode) (v : Word32) : (reply cmd code v s).callReturn =
    s.callReturn := rfl
@[simp] theorem reply_hung (cmd : Instr) (code : ResultCode) (v : Word32) : (reply cmd code v s).hung =
    s.hung := rfl
@[simp] theorem reply_openBus (cmd : Instr) (code : ResultCode) (v : Word32) : (reply cmd code v s).openBus =
    s.openBus := rfl
@[simp] theorem reply_inputs (cmd : Instr) (code : ResultCode) (v : Word32) : (reply cmd code v s).inputs =
    s.inputs := rfl
@[simp] theorem reply_statusAnswers (cmd : Instr) (code : ResultCode) (v : Word32) : (reply cmd code v s).statusAnswers =
    s.statusAnswers := rfl
@[simp] theorem reply_dataAnswers (cmd : Instr) (code : ResultCode) (v : Word32) : (reply cmd code v s).dataAnswers =
    s.dataAnswers := rfl
@[simp] theorem reply_asleepAnswers (cmd : Instr) (code : ResultCode) (v : Word32) : (reply cmd code v s).asleepAnswers =
    s.asleepAnswers := rfl
@[simp] theorem reply_pollAnswers (cmd : Instr) (code : ResultCode) (v : Word32) : (reply cmd code v s).pollAnswers =
    s.pollAnswers := rfl
@[simp] theorem reply_roomAnswers (cmd : Instr) (code : ResultCode) (v : Word32) : (reply cmd code v s).roomAnswers =
    s.roomAnswers := rfl

/-! ### clearFlags -/

@[simp] theorem clearFlags_linkState : (clearFlags s).linkState = LinkState.idle := rfl
@[simp] theorem clearFlags_fault : (clearFlags s).fault = false := rfl
@[simp] theorem clearFlags_faultCause : (clearFlags s).faultCause = none := rfl
@[simp] theorem clearFlags_lastRx : (clearFlags s).lastRx = none := rfl
@[simp] theorem clearFlags_irqEn : (clearFlags s).irqEn = false := rfl
@[simp] theorem clearFlags_irqPend : (clearFlags s).irqPend = false := rfl
@[simp] theorem clearFlags_waitCnt : (clearFlags s).waitCnt = 0 := rfl
@[simp] theorem clearFlags_initDone : (clearFlags s).initDone = s.initDone := rfl
@[simp] theorem clearFlags_txqCount : (clearFlags s).txqCount =
    if s.cfg.initClearsTxq then 0 else s.txqCount := rfl
@[simp] theorem clearFlags_txq : (clearFlags s).txq = s.txq := rfl
@[simp] theorem clearFlags_rxbuf : (clearFlags s).rxbuf = s.rxbuf := rfl
@[simp] theorem clearFlags_busTrace : (clearFlags s).busTrace = s.busTrace := rfl
@[simp] theorem clearFlags_sinkLog : (clearFlags s).sinkLog = s.sinkLog := rfl
@[simp] theorem clearFlags_cfg : (clearFlags s).cfg = s.cfg := rfl
@[simp] theorem clearFlags_hostLog : (clearFlags s).hostLog = s.hostLog := rfl
@[simp] theorem clearFlags_callReturn : (clearFlags s).callReturn = s.callReturn := rfl
@[simp] theorem clearFlags_hung : (clearFlags s).hung = s.hung := rfl
@[simp] theorem clearFlags_openBus : (clearFlags s).openBus = s.openBus := rfl
@[simp] theorem clearFlags_inputs : (clearFlags s).inputs = s.inputs := rfl
@[simp] theorem clearFlags_statusAnswers : (clearFlags s).statusAnswers = s.statusAnswers := rfl
@[simp] theorem clearFlags_dataAnswers : (clearFlags s).dataAnswers = s.dataAnswers := rfl
@[simp] theorem clearFlags_asleepAnswers : (clearFlags s).asleepAnswers = s.asleepAnswers := rfl
@[simp] theorem clearFlags_pollAnswers : (clearFlags s).pollAnswers = s.pollAnswers := rfl
@[simp] theorem clearFlags_roomAnswers : (clearFlags s).roomAnswers = s.roomAnswers := rfl

/-! ### storeFrame -/

@[simp] theorem storeFrame_linkState (bs : List Byte) : (storeFrame bs s).linkState = s.linkState := rfl
@[simp] theorem storeFrame_fault (bs : List Byte) : (storeFrame bs s).fault = s.fault := rfl
@[simp] theorem storeFrame_faultCause (bs : List Byte) : (storeFrame bs s).faultCause =
    s.faultCause := rfl
@[simp] theorem storeFrame_lastRx (bs : List Byte) : (storeFrame bs s).lastRx = s.lastRx := rfl
@[simp] theorem storeFrame_irqEn (bs : List Byte) : (storeFrame bs s).irqEn = s.irqEn := rfl
@[simp] theorem storeFrame_irqPend (bs : List Byte) : (storeFrame bs s).irqPend = s.irqPend := rfl
@[simp] theorem storeFrame_waitCnt (bs : List Byte) : (storeFrame bs s).waitCnt = s.waitCnt := rfl
@[simp] theorem storeFrame_initDone (bs : List Byte) : (storeFrame bs s).initDone = s.initDone := rfl
@[simp] theorem storeFrame_txqCount (bs : List Byte) : (storeFrame bs s).txqCount = s.txqCount := rfl
@[simp] theorem storeFrame_txq (bs : List Byte) : (storeFrame bs s).txq = s.txq := rfl
@[simp] theorem storeFrame_rxbuf (bs : List Byte) : (storeFrame bs s).rxbuf =
    memWrite s.rxbuf 0 bs := rfl
@[simp] theorem storeFrame_busTrace (bs : List Byte) : (storeFrame bs s).busTrace = s.busTrace := rfl
@[simp] theorem storeFrame_sinkLog (bs : List Byte) : (storeFrame bs s).sinkLog = s.sinkLog := rfl
@[simp] theorem storeFrame_cfg (bs : List Byte) : (storeFrame bs s).cfg = s.cfg := rfl
@[simp] theorem storeFrame_hostLog (bs : List Byte) : (storeFrame bs s).hostLog = s.hostLog := rfl
@[simp] theorem storeFrame_callReturn (bs : List Byte) : (storeFrame bs s).callReturn =
    s.callReturn := rfl
@[simp] theorem storeFrame_hung (bs : List Byte) : (storeFrame bs s).hung = s.hung := rfl
@[simp] theorem storeFrame_openBus (bs : List Byte) : (storeFrame bs s).openBus = s.openBus := rfl
@[simp] theorem storeFrame_inputs (bs : List Byte) : (storeFrame bs s).inputs = s.inputs := rfl
@[simp] theorem storeFrame_statusAnswers (bs : List Byte) : (storeFrame bs s).statusAnswers =
    s.statusAnswers := rfl
@[simp] theorem storeFrame_dataAnswers (bs : List Byte) : (storeFrame bs s).dataAnswers =
    s.dataAnswers := rfl
@[simp] theorem storeFrame_asleepAnswers (bs : List Byte) : (storeFrame bs s).asleepAnswers =
    s.asleepAnswers := rfl
@[simp] theorem storeFrame_pollAnswers (bs : List Byte) : (storeFrame bs s).pollAnswers =
    s.pollAnswers := rfl
@[simp] theorem storeFrame_roomAnswers (bs : List Byte) : (storeFrame bs s).roomAnswers =
    s.roomAnswers := rfl

/-! ### toSink -/

@[simp] theorem toSink_linkState (d : Delivery) : (toSink d s).linkState = s.linkState := rfl
@[simp] theorem toSink_fault (d : Delivery) : (toSink d s).fault = s.fault := rfl
@[simp] theorem toSink_faultCause (d : Delivery) : (toSink d s).faultCause = s.faultCause := rfl
@[simp] theorem toSink_lastRx (d : Delivery) : (toSink d s).lastRx = s.lastRx := rfl
@[simp] theorem toSink_irqEn (d : Delivery) : (toSink d s).irqEn = s.irqEn := rfl
@[simp] theorem toSink_irqPend (d : Delivery) : (toSink d s).irqPend = s.irqPend := rfl
@[simp] theorem toSink_waitCnt (d : Delivery) : (toSink d s).waitCnt = s.waitCnt := rfl
@[simp] theorem toSink_initDone (d : Delivery) : (toSink d s).initDone = s.initDone := rfl
@[simp] theorem toSink_txqCount (d : Delivery) : (toSink d s).txqCount = s.txqCount := rfl
@[simp] theorem toSink_txq (d : Delivery) : (toSink d s).txq = s.txq := rfl
@[simp] theorem toSink_rxbuf (d : Delivery) : (toSink d s).rxbuf = s.rxbuf := rfl
@[simp] theorem toSink_busTrace (d : Delivery) : (toSink d s).busTrace = s.busTrace := rfl
@[simp] theorem toSink_sinkLog (d : Delivery) : (toSink d s).sinkLog = s.sinkLog ++ [d] := rfl
@[simp] theorem toSink_cfg (d : Delivery) : (toSink d s).cfg = s.cfg := rfl
@[simp] theorem toSink_hostLog (d : Delivery) : (toSink d s).hostLog = s.hostLog := rfl
@[simp] theorem toSink_callReturn (d : Delivery) : (toSink d s).callReturn = s.callReturn := rfl
@[simp] theorem toSink_hung (d : Delivery) : (toSink d s).hung = s.hung := rfl
@[simp] theorem toSink_openBus (d : Delivery) : (toSink d s).openBus = s.openBus := rfl
@[simp] theorem toSink_inputs (d : Delivery) : (toSink d s).inputs = s.inputs := rfl
@[simp] theorem toSink_statusAnswers (d : Delivery) : (toSink d s).statusAnswers =
    s.statusAnswers := rfl
@[simp] theorem toSink_dataAnswers (d : Delivery) : (toSink d s).dataAnswers = s.dataAnswers := rfl
@[simp] theorem toSink_asleepAnswers (d : Delivery) : (toSink d s).asleepAnswers =
    s.asleepAnswers := rfl
@[simp] theorem toSink_pollAnswers (d : Delivery) : (toSink d s).pollAnswers = s.pollAnswers := rfl
@[simp] theorem toSink_roomAnswers (d : Delivery) : (toSink d s).roomAnswers = s.roomAnswers := rfl

/-! ### enqueue -/

@[simp] theorem enqueue_linkState (ds : List Byte) : (enqueue ds s).linkState = s.linkState := rfl
@[simp] theorem enqueue_fault (ds : List Byte) : (enqueue ds s).fault = s.fault := rfl
@[simp] theorem enqueue_faultCause (ds : List Byte) : (enqueue ds s).faultCause = s.faultCause := rfl
@[simp] theorem enqueue_lastRx (ds : List Byte) : (enqueue ds s).lastRx = s.lastRx := rfl
@[simp] theorem enqueue_irqEn (ds : List Byte) : (enqueue ds s).irqEn = s.irqEn := rfl
@[simp] theorem enqueue_irqPend (ds : List Byte) : (enqueue ds s).irqPend = s.irqPend := rfl
@[simp] theorem enqueue_waitCnt (ds : List Byte) : (enqueue ds s).waitCnt = s.waitCnt := rfl
@[simp] theorem enqueue_initDone (ds : List Byte) : (enqueue ds s).initDone = s.initDone := rfl
@[simp] theorem enqueue_txqCount (ds : List Byte) : (enqueue ds s).txqCount =
    s.txqCount + BitVec.ofNat 8 ds.length := rfl
@[simp] theorem enqueue_txq (ds : List Byte) : (enqueue ds s).txq =
    memWrite s.txq s.txqCount.toNat ds := rfl
@[simp] theorem enqueue_rxbuf (ds : List Byte) : (enqueue ds s).rxbuf = s.rxbuf := rfl
@[simp] theorem enqueue_busTrace (ds : List Byte) : (enqueue ds s).busTrace = s.busTrace := rfl
@[simp] theorem enqueue_sinkLog (ds : List Byte) : (enqueue ds s).sinkLog = s.sinkLog := rfl
@[simp] theorem enqueue_cfg (ds : List Byte) : (enqueue ds s).cfg = s.cfg := rfl
@[simp] theorem enqueue_hostLog (ds : List Byte) : (enqueue ds s).hostLog = s.hostLog := rfl
@[simp] theorem enqueue_callReturn (ds : List Byte) : (enqueue ds s).callReturn = s.callReturn := rfl
@[simp] theorem enqueue_hung (ds : List Byte) : (enqueue ds s).hung = s.hung := rfl
@[simp] theorem enqueue_openBus (ds : List Byte) : (enqueue ds s).openBus = s.openBus := rfl
@[simp] theorem enqueue_inputs (ds : List Byte) : (enqueue ds s).inputs = s.inputs := rfl
@[simp] theorem enqueue_statusAnswers (ds : List Byte) : (enqueue ds s).statusAnswers =
    s.statusAnswers := rfl
@[simp] theorem enqueue_dataAnswers (ds : List Byte) : (enqueue ds s).dataAnswers = s.dataAnswers := rfl
@[simp] theorem enqueue_asleepAnswers (ds : List Byte) : (enqueue ds s).asleepAnswers =
    s.asleepAnswers := rfl
@[simp] theorem enqueue_pollAnswers (ds : List Byte) : (enqueue ds s).pollAnswers = s.pollAnswers := rfl
@[simp] theorem enqueue_roomAnswers (ds : List Byte) : (enqueue ds s).roomAnswers = s.roomAnswers := rfl

/-! ### compact -/

@[simp] theorem compact_linkState (k : Nat) : (compact k s).linkState = s.linkState := rfl
@[simp] theorem compact_fault (k : Nat) : (compact k s).fault = s.fault := rfl
@[simp] theorem compact_faultCause (k : Nat) : (compact k s).faultCause = s.faultCause := rfl
@[simp] theorem compact_lastRx (k : Nat) : (compact k s).lastRx = s.lastRx := rfl
@[simp] theorem compact_irqEn (k : Nat) : (compact k s).irqEn = s.irqEn := rfl
@[simp] theorem compact_irqPend (k : Nat) : (compact k s).irqPend = s.irqPend := rfl
@[simp] theorem compact_waitCnt (k : Nat) : (compact k s).waitCnt = s.waitCnt := rfl
@[simp] theorem compact_initDone (k : Nat) : (compact k s).initDone = s.initDone := rfl
@[simp] theorem compact_txqCount (k : Nat) : (compact k s).txqCount =
    BitVec.ofNat 8 (s.txqCount.toNat - k) := rfl
@[simp] theorem compact_txq (k : Nat) : (compact k s).txq =
    memForget (memWrite s.txq 0 (memRead Config.unspecTxq s.txq k (s.txqCount.toNat - k))) (s.txqCount.toNat - k) := rfl
@[simp] theorem compact_rxbuf (k : Nat) : (compact k s).rxbuf = s.rxbuf := rfl
@[simp] theorem compact_busTrace (k : Nat) : (compact k s).busTrace = s.busTrace := rfl
@[simp] theorem compact_sinkLog (k : Nat) : (compact k s).sinkLog = s.sinkLog := rfl
@[simp] theorem compact_cfg (k : Nat) : (compact k s).cfg = s.cfg := rfl
@[simp] theorem compact_hostLog (k : Nat) : (compact k s).hostLog = s.hostLog := rfl
@[simp] theorem compact_callReturn (k : Nat) : (compact k s).callReturn = s.callReturn := rfl
@[simp] theorem compact_hung (k : Nat) : (compact k s).hung = s.hung := rfl
@[simp] theorem compact_openBus (k : Nat) : (compact k s).openBus = s.openBus := rfl
@[simp] theorem compact_inputs (k : Nat) : (compact k s).inputs = s.inputs := rfl
@[simp] theorem compact_statusAnswers (k : Nat) : (compact k s).statusAnswers = s.statusAnswers := rfl
@[simp] theorem compact_dataAnswers (k : Nat) : (compact k s).dataAnswers = s.dataAnswers := rfl
@[simp] theorem compact_asleepAnswers (k : Nat) : (compact k s).asleepAnswers = s.asleepAnswers := rfl
@[simp] theorem compact_pollAnswers (k : Nat) : (compact k s).pollAnswers = s.pollAnswers := rfl
@[simp] theorem compact_roomAnswers (k : Nat) : (compact k s).roomAnswers = s.roomAnswers := rfl

/-! ### dropInput -/

@[simp] theorem dropInput_linkState : (dropInput s).linkState = s.linkState := rfl
@[simp] theorem dropInput_fault : (dropInput s).fault = s.fault := rfl
@[simp] theorem dropInput_faultCause : (dropInput s).faultCause = s.faultCause := rfl
@[simp] theorem dropInput_lastRx : (dropInput s).lastRx = s.lastRx := rfl
@[simp] theorem dropInput_irqEn : (dropInput s).irqEn = s.irqEn := rfl
@[simp] theorem dropInput_irqPend : (dropInput s).irqPend = s.irqPend := rfl
@[simp] theorem dropInput_waitCnt : (dropInput s).waitCnt = s.waitCnt := rfl
@[simp] theorem dropInput_initDone : (dropInput s).initDone = s.initDone := rfl
@[simp] theorem dropInput_txqCount : (dropInput s).txqCount = s.txqCount := rfl
@[simp] theorem dropInput_txq : (dropInput s).txq = s.txq := rfl
@[simp] theorem dropInput_rxbuf : (dropInput s).rxbuf = s.rxbuf := rfl
@[simp] theorem dropInput_busTrace : (dropInput s).busTrace = s.busTrace := rfl
@[simp] theorem dropInput_sinkLog : (dropInput s).sinkLog = s.sinkLog := rfl
@[simp] theorem dropInput_cfg : (dropInput s).cfg = s.cfg := rfl
@[simp] theorem dropInput_hostLog : (dropInput s).hostLog = s.hostLog := rfl
@[simp] theorem dropInput_callReturn : (dropInput s).callReturn = s.callReturn := rfl
@[simp] theorem dropInput_hung : (dropInput s).hung = s.hung := rfl
@[simp] theorem dropInput_openBus : (dropInput s).openBus = s.openBus := rfl
@[simp] theorem dropInput_inputs : (dropInput s).inputs = s.inputs.tail := rfl
@[simp] theorem dropInput_statusAnswers : (dropInput s).statusAnswers = s.statusAnswers := rfl
@[simp] theorem dropInput_dataAnswers : (dropInput s).dataAnswers = s.dataAnswers := rfl
@[simp] theorem dropInput_asleepAnswers : (dropInput s).asleepAnswers = s.asleepAnswers := rfl
@[simp] theorem dropInput_pollAnswers : (dropInput s).pollAnswers = s.pollAnswers := rfl
@[simp] theorem dropInput_roomAnswers : (dropInput s).roomAnswers = s.roomAnswers := rfl

end Sys2Proof.Machine
end

