-- ==== Sys2Proof/Laws/Bus.lean ====
section
/-! SUPPORT. The laws of bus activity: how draws move on, what each bus primitive can do at all
(`BusSpec`), and what it does when its ready flags come in time. -/

namespace Sys2Proof.Machine

/-! ### Draws -/

@[simp] theorem Answers.at_drop {α : Type} (free : Nat → α) (a : Answers α) (n k : Nat) :
    (a.drop n).at free k = a.at free (n + k) := by
  simp [Answers.at, Answers.drop, Nat.add_assoc]

@[simp] theorem Answers.drop_drop {α : Type} (a : Answers α) (m n : Nat) :
    (a.drop m).drop n = a.drop (m + n) := by
  simp [Answers.drop, Nat.add_assoc]

@[simp] theorem Answers.drop_zero {α : Type} (a : Answers α) : a.drop 0 = a := rfl

/-! ### States after bus activity -/

section
variable (s : State) (new : List Transaction) (p q r w : Nat)

@[simp] theorem busAfter_linkState : (s.busAfter new p q r w).linkState = s.linkState := rfl
@[simp] theorem busAfter_fault : (s.busAfter new p q r w).fault = s.fault := rfl
@[simp] theorem busAfter_faultCause : (s.busAfter new p q r w).faultCause = s.faultCause := rfl
@[simp] theorem busAfter_lastRx : (s.busAfter new p q r w).lastRx = s.lastRx := rfl
@[simp] theorem busAfter_irqEn : (s.busAfter new p q r w).irqEn = s.irqEn := rfl
@[simp] theorem busAfter_irqPend : (s.busAfter new p q r w).irqPend = s.irqPend := rfl
@[simp] theorem busAfter_waitCnt : (s.busAfter new p q r w).waitCnt = s.waitCnt := rfl
@[simp] theorem busAfter_initDone : (s.busAfter new p q r w).initDone = s.initDone := rfl
@[simp] theorem busAfter_txqCount : (s.busAfter new p q r w).txqCount = s.txqCount := rfl
@[simp] theorem busAfter_txq : (s.busAfter new p q r w).txq = s.txq := rfl
@[simp] theorem busAfter_rxbuf : (s.busAfter new p q r w).rxbuf = s.rxbuf := rfl
@[simp] theorem busAfter_busTrace : (s.busAfter new p q r w).busTrace = s.busTrace ++ new := rfl
@[simp] theorem busAfter_sinkLog : (s.busAfter new p q r w).sinkLog = s.sinkLog := rfl
@[simp] theorem busAfter_cfg : (s.busAfter new p q r w).cfg = s.cfg := rfl
@[simp] theorem busAfter_hostLog : (s.busAfter new p q r w).hostLog = s.hostLog := rfl
@[simp] theorem busAfter_callReturn : (s.busAfter new p q r w).callReturn = s.callReturn := rfl
@[simp] theorem busAfter_hung : (s.busAfter new p q r w).hung = s.hung := rfl
@[simp] theorem busAfter_openBus : (s.busAfter new p q r w).openBus = s.openBus := rfl
@[simp] theorem busAfter_inputs : (s.busAfter new p q r w).inputs = s.inputs := rfl
@[simp] theorem busAfter_roomAnswers : (s.busAfter new p q r w).roomAnswers = s.roomAnswers := rfl

@[simp] theorem busAfter_statusDraw (k : Nat) :
    (s.busAfter new p q r w).statusDraw k = s.statusDraw (p + k) := by
  simp [State.statusDraw, State.busAfter]
@[simp] theorem busAfter_dataDraw (k : Nat) :
    (s.busAfter new p q r w).dataDraw k = s.dataDraw (q + k) := by
  simp [State.dataDraw, State.busAfter]
@[simp] theorem busAfter_asleepDraw (k : Nat) :
    (s.busAfter new p q r w).asleepDraw k = s.asleepDraw (r + k) := by
  simp [State.asleepDraw, State.busAfter]
@[simp] theorem busAfter_pollDraw (k : Nat) :
    (s.busAfter new p q r w).pollDraw k = s.pollDraw (w + k) := by
  simp [State.pollDraw, State.busAfter]
@[simp] theorem busAfter_roomDraw (k : Nat) : (s.busAfter new p q r w).roomDraw k = s.roomDraw k := rfl

@[simp] theorem busAfter_busAfter (new' : List Transaction) (p' q' r' w' : Nat) :
    (s.busAfter new p q r w).busAfter new' p' q' r' w' =
      s.busAfter (new ++ new') (p + p') (q + q') (r + r') (w + w') := by
  simp [State.busAfter]

@[simp] theorem busAfter_settles (k : Strobe) (n : Nat) :
    (s.busAfter new p q r w).settles k n = s.settles k (r + n) := by
  rw [State.settles, busAfter_asleepDraw]; rfl
@[simp] theorem busAfter_plainTrace (k : Strobe) (n : Nat) :
    (s.busAfter new p q r w).plainTrace k n = s.plainTrace k (p + n) := by
  rw [State.plainTrace, busAfter_statusDraw]; rfl
@[simp] theorem busAfter_opTraceAt (k : Strobe) (n : Nat) :
    (s.busAfter new p p p w).opTraceAt k n = s.opTraceAt k (p + n) := by
  simp [State.opTraceAt]
@[simp] theorem busAfter_seesIdle (st : Byte) :
    (s.busAfter new p q r w).seesIdle st = s.seesIdle st := rfl

theorem busAfter_zero : s.busAfter [] 0 0 0 0 = s := by simp [State.busAfter]

/-- The waits that are left after w of them. -/
theorem State.pollsPass.after {s : State} {n : Nat} (h : s.pollsPass n) (m : Nat) (hm : w + m ≤ n) :
    (s.busAfter new p q r w).pollsPass m := by
  intro k hk
  simpa using h (w + k) (by omega)

theorem State.pollsPass.mono {s : State} {n m : Nat} (h : s.pollsPass n) (hm : m ≤ n) : s.pollsPass m :=
  fun k hk => h k (by omega)

end

/-- Each single update of bus activity, in the one form. -/
theorem traced_eq (s : State) (t : Transaction) : s.traced t = s.busAfter [t] 0 0 0 0 := rfl
theorem tookStatus_eq (s : State) : s.tookStatus = s.busAfter [] 1 0 0 0 := by
  simp [State.tookStatus, State.busAfter]
theorem tookData_eq (s : State) : s.tookData = s.busAfter [] 0 1 0 0 := by
  simp [State.tookData, State.busAfter]
theorem tookAsleep_eq (s : State) : s.tookAsleep = s.busAfter [] 0 0 1 0 := by
  simp [State.tookAsleep, State.busAfter]
theorem strobed_eq (s : State) (k : Strobe) : s.strobed k = s.busAfter [s.plainTrace k 0] 1 0 0 0 := by
  rw [State.strobed, tookStatus_eq, traced_eq, busAfter_busAfter]; rfl
theorem tookPolls_eq (s : State) : s.tookPolls = s.busAfter [] 0 0 0 1 := by
  simp [State.tookPolls, State.busAfter]

theorem BusOnly.refl (s : State) : BusOnly s s := ⟨[], 0, 0, 0, 0, (busAfter_zero s).symm⟩

theorem BusOnly.trans {s t u : State} (h : BusOnly s t) (h' : BusOnly t u) : BusOnly s u := by
  obtain ⟨_, _, _, _, _, rfl⟩ := h
  obtain ⟨_, _, _, _, _, rfl⟩ := h'
  rw [busAfter_busAfter]
  exact ⟨_, _, _, _, _, rfl⟩

theorem BusOnly.of_eq {s t : State} {new : List Transaction} {p q r w : Nat}
    (h : t = s.busAfter new p q r w) : BusOnly s t := ⟨new, p, q, r, w, h⟩

theorem BusOnly.cfg {s t : State} (h : BusOnly s t) : t.cfg = s.cfg := by
  obtain ⟨_, _, _, _, _, rfl⟩ := h; rfl

/-! ### Micro-sequences -/

@[simp] theorem Flow.andThen_ok {α β : Type} (a : α) (s : State) (g : α → State → Flow β) :
    (Flow.ok a s).andThen g = g a s := rfl
@[simp] theorem Flow.andThen_raised {α β : Type} (c : FaultCause) (s : State) (g : α → State → Flow β) :
    (Flow.raised c s : Flow α).andThen g = .raised c s := rfl
@[simp] theorem Flow.andThen_hung {α β : Type} (s : State) (g : α → State → Flow β) :
    (Flow.hung s : Flow α).andThen g = .hung s := rfl

/-- Everything a bus primitive can do (R148): go on, raise BUS_TIMEOUT under a finite cap, hang under
INF; in each case only bus activity has happened. -/
def BusSpec {α : Type} (s : State) (f : Flow α) : Prop :=
  match f with
  | .ok _ t => BusOnly s t
  | .raised c t => BusOnly s t ∧ c = .busTimeout ∧ s.cfg.busWaitCap ≠ none
  | .hung t => BusOnly s t ∧ s.cfg.busWaitCap = none

theorem BusSpec.ok {α : Type} {s t : State} {a : α} (h : BusOnly s t) : BusSpec s (Flow.ok a t) := h

theorem BusSpec.from {α : Type} {s t : State} {f : Flow α} (h : BusOnly s t) (hf : BusSpec t f) :
    BusSpec s f := by
  have hc := h.cfg
  cases f with
  | ok a u => exact h.trans hf
  | raised c u => exact ⟨h.trans hf.1, hf.2.1, hc ▸ hf.2.2⟩
  | hung u => exact ⟨h.trans hf.1, hc ▸ hf.2⟩

theorem BusSpec.andThen {α β : Type} {s : State} {f : Flow α} {g : α → State → Flow β}
    (hf : BusSpec s f) (hg : ∀ a t, BusSpec t (g a t)) : BusSpec s (f.andThen g) := by
  cases f with
  | ok a t => exact BusSpec.from hf (hg a t)
  | raised c t => exact hf
  | hung t => exact hf

theorem waitFlag_spec (f : ReadyFlag) (s : State) : BusSpec s (waitFlag f s) := by
  have h : BusOnly s s.tookPolls := .of_eq (tookPolls_eq s)
  unfold waitFlag
  split
  · exact h
  · split
    · rename_i hc; exact ⟨h, rfl, by simp [hc]⟩
    · rename_i hc; exact ⟨h, hc⟩

theorem traced_spec {α : Type} (a : α) (s : State) (t : Transaction) : BusSpec s (.ok a (s.traced t)) :=
  BusOnly.of_eq (traced_eq s t)

theorem busRegRead_spec (a : Addr) (s : State) : BusSpec s (busRegRead a s) :=
  (waitFlag_spec _ _).andThen fun _ _ => (waitFlag_spec _ _).andThen fun _ t =>
    BusSpec.from (.of_eq (tookData_eq t)) (traced_spec _ _ _)

theorem busRegWrite_spec (a : Addr) (v : Byte) (s : State) : BusSpec s (busRegWrite a v s) := by
  unfold busRegWrite
  split
  · exact BusOnly.refl s
  · exact (waitFlag_spec _ _).andThen fun _ _ => traced_spec _ _ _

theorem burstBytes_spec (n : Nat) (s : State) : BusSpec s (burstBytes n s) := by
  induction n generalizing s with
  | zero => exact BusOnly.refl s
  | succ n ih =>
    exact (waitFlag_spec _ _).andThen fun _ t =>
      BusSpec.from (.of_eq (tookData_eq t)) ((ih _).andThen fun _ u => BusOnly.refl u)

theorem busBurstRead_spec (a : Addr) (n : Nat) (s : State) : BusSpec s (busBurstRead a n s) := by
  unfold busBurstRead
  split
  · exact BusOnly.refl s
  · exact (waitFlag_spec _ _).andThen fun _ _ => (burstBytes_spec _ _).andThen fun _ _ => traced_spec _ _ _

theorem burstWaits_spec (n : Nat) (s : State) : BusSpec s (burstWaits n s) := by
  induction n generalizing s with
  | zero => exact BusOnly.refl s
  | succ n ih => exact (waitFlag_spec _ _).andThen fun _ _ => ih _

theorem busBurstWrite_spec (a : Addr) (ds : List Byte) (s : State) : BusSpec s (busBurstWrite a ds s) := by
  unfold busBurstWrite
  split
  · exact BusOnly.refl s
  · exact (waitFlag_spec _ _).andThen fun _ _ => (burstWaits_spec _ _).andThen fun _ _ => traced_spec _ _ _

theorem plainStrobe_spec (k : Strobe) (s : State) : BusSpec s (plainStrobe k s) :=
  BusOnly.of_eq (strobed_eq s k)

theorem settleIfAsleep_spec (k : Strobe) (asleep : Bool) (s : State) :
    BusSpec s (settleIfAsleep k asleep s) := by
  unfold settleIfAsleep
  split
  · exact (waitFlag_spec _ _).andThen fun _ _ => traced_spec _ _ _
  · exact BusOnly.refl s

theorem operationalStrobe_spec (k : Strobe) (s : State) : BusSpec s (operationalStrobe k s) :=
  (busRegRead_spec _ _).andThen fun _ _ => (busRegWrite_spec _ _ _).andThen fun _ t =>
    BusSpec.andThen
      (BusSpec.from ((BusOnly.of_eq (strobed_eq t k)).trans (.of_eq (tookAsleep_eq _)))
        (settleIfAsleep_spec _ _ _))
      fun _ _ => (busRegWrite_spec _ _ _).andThen fun _ _ => (waitFlag_spec _ _).andThen fun _ u =>
        BusOnly.refl u

theorem legalStrobe_spec (k : Strobe) (s : State) : BusSpec s (legalStrobe k s) :=
  (waitFlag_spec _ _).andThen fun _ _ => by
    split
    · exact operationalStrobe_spec _ _
    · exact plainStrobe_spec _ _

theorem busStrobe_spec (c : Byte) (s : State) : BusSpec s (busStrobe c s) := by
  unfold busStrobe
  split
  · exact (legalStrobe_spec _ _).andThen fun _ u => BusOnly.refl u
  · exact BusOnly.refl s

theorem paWriteSingle_spec (v : Byte) (s : State) : BusSpec s (paWriteSingle v s) :=
  (waitFlag_spec _ _).andThen fun _ _ => traced_spec _ _ _

theorem paPointerReset_spec (s : State) : BusSpec s (paPointerReset s) :=
  (legalStrobe_spec _ _).andThen fun _ u => BusOnly.refl u

theorem busPaWrite_spec (ds : List Byte) (s : State) : BusSpec s (busPaWrite ds s) := by
  unfold busPaWrite
  refine BusSpec.andThen ?_ fun _ _ => paPointerReset_spec _
  split
  · exact paWriteSingle_spec _ _
  · exact busBurstWrite_spec _ _ _

theorem writeConfig_spec (tbl : List (Addr × Byte)) (s : State) : BusSpec s (writeConfig tbl s) := by
  induction tbl generalizing s with
  | nil => exact BusOnly.refl s
  | cons e tbl ih => exact (busRegWrite_spec _ _ _).andThen fun _ _ => ih _

/-! ### When the ready flags come in time -/

theorem waitFlag_pass {s : State} {n : Nat} (f : ReadyFlag) (h : s.pollsPass n) (hn : 1 ≤ n) :
    waitFlag f s = .ok () (s.busAfter [] 0 0 0 1) := by
  unfold waitFlag
  rw [if_pos (h 0 hn), tookPolls_eq]

theorem busRegRead_pass {s : State} {n : Nat} (a : Addr) (h : s.pollsPass n) (hn : 2 ≤ n) :
    busRegRead a s = .ok (s.dataDraw 0) (s.busAfter [.read (s.cfg.radio.readByte a) [s.dataDraw 0]] 0 1 0 2) := by
  unfold busRegRead
  rw [waitFlag_pass _ h (by omega), Flow.andThen_ok,
    waitFlag_pass (n := 1) _ (h.after _ _ _ _ _ _ (by omega)) (by omega), Flow.andThen_ok]
  simp [tookData_eq, traced_eq]

theorem busRegWrite_pass {s : State} {n : Nat} (a : Addr) (v : Byte) (ha : s.cfg.radio.isStatusAddr a = false)
    (h : s.pollsPass n) (hn : 1 ≤ n) :
    busRegWrite a v s = .ok true (s.busAfter [.write (s.cfg.radio.writeByte a) [v]] 0 0 0 1) := by
  unfold busRegWrite
  rw [ha, if_neg (by simp), waitFlag_pass _ h hn, Flow.andThen_ok]
  simp [traced_eq]

theorem burstBytes_pass {s : State} (n : Nat) {k : Nat} (h : s.pollsPass k) (hk : n ≤ k) :
    burstBytes n s = .ok ((List.range n).map s.dataDraw) (s.busAfter [] 0 n 0 n) := by
  induction n generalizing s k with
  | zero => simp [burstBytes, busAfter_zero]
  | succ n ih =>
    rw [burstBytes, waitFlag_pass _ h (by omega), Flow.andThen_ok, tookData_eq, busAfter_busAfter,
      ih (k := n) (h.after _ _ _ _ _ _ (by omega)) (le_refl n), Flow.andThen_ok, busAfter_busAfter]
    have e : ∀ k, s.dataDraw (1 + k) = s.dataDraw (k + 1) := fun k => by rw [Nat.add_comm]
    simp [List.range_succ_eq_map, Function.comp_def, Nat.add_comm 1 n, e]

theorem busBurstRead_pass {s : State} (a : Addr) (n : Nat) {k : Nat} (hn : n ≠ 0) (h : s.pollsPass k)
    (hk : n + 1 ≤ k) :
    busBurstRead a n s = .ok ((List.range n).map s.dataDraw)
      (s.busAfter [.read (s.cfg.radio.burstReadByte a) ((List.range n).map s.dataDraw)] 0 n 0 (n + 1)) := by
  unfold busBurstRead
  rw [if_neg hn, waitFlag_pass _ h (by omega), Flow.andThen_ok,
    burstBytes_pass n (k := n) (h.after _ _ _ _ _ _ (by omega)) (le_refl n), Flow.andThen_ok]
  have e : (s.busAfter [] 0 0 0 1).dataDraw = s.dataDraw := by funext k; simp
  simp [traced_eq, Nat.add_comm 1 n, e]

theorem burstWaits_pass {s : State} (n : Nat) {k : Nat} (h : s.pollsPass k) (hk : n ≤ k) :
    burstWaits n s = .ok () (s.busAfter [] 0 0 0 n) := by
  induction n generalizing s k with
  | zero => simp [burstWaits, busAfter_zero]
  | succ n ih =>
    rw [burstWaits, waitFlag_pass _ h (by omega), Flow.andThen_ok,
      ih (k := n) (h.after _ _ _ _ _ _ (by omega)) (le_refl n), busAfter_busAfter]
    simp [Nat.add_comm 1 n]

theorem busBurstWrite_pass {s : State} (a : Addr) (ds : List Byte) {k : Nat} (hd : ds ≠ [])
    (h : s.pollsPass k) (hk : ds.length ≤ k) :
    busBurstWrite a ds s = .ok () (s.busAfter [.write (s.cfg.radio.burstWriteByte a) ds] 0 0 0 ds.length) := by
  have hl : 1 ≤ ds.length := List.length_pos_iff.2 hd
  unfold busBurstWrite
  rw [if_neg (by omega), waitFlag_pass _ h (by omega), Flow.andThen_ok,
    burstWaits_pass (ds.length - 1) (k := ds.length - 1) (h.after _ _ _ _ _ _ (by omega)) (le_refl _),
    Flow.andThen_ok]
  simp [traced_eq, show 1 + (ds.length - 1) = ds.length by omega]

/-- R104, R110: no configuration register, the auxiliary one included, lies in the status range. -/
theorem Radio.config_not_status {r : Radio} {a : Addr} (h : r.isConfigAddr a = true) :
    r.isStatusAddr a = false := by
  simp [Radio.isStatusAddr, h]

theorem Radio.aux_config (r : Radio) : r.isConfigAddr r.auxCfgAddr = true := by
  simp [Radio.isConfigAddr]

/-- R124: the ready-flag waits of an operational strobe. -/
def opWaits (settles : Bool) : Nat := if settles then 7 else 6

theorem opWaits_le (b : Bool) : opWaits b ≤ 7 := by
  unfold opWaits; split <;> omega

theorem settles_eq (s : State) (k : Strobe) (n : Nat) :
    (s.asleepDraw n && !s.cfg.radio.sleeps k) = s.settles k n := by
  simp [State.settles, Radio.sleeps]

theorem settleIfAsleep_pass {s : State} {n : Nat} (k : Strobe) (asleep b : Bool)
    (hb : (asleep && !s.cfg.radio.sleeps k) = b) (h : s.pollsPass n) (hn : 1 ≤ n) :
    settleIfAsleep k asleep s =
      .ok () (s.busAfter (if b then [.settle] else []) 0 0 0 (if b then 1 else 0)) := by
  unfold settleIfAsleep
  rw [hb]
  split
  · rw [waitFlag_pass _ h hn, Flow.andThen_ok]; simp [traced_eq]
  · simp [busAfter_zero]

theorem operationalStrobe_pass {s : State} {n : Nat} (k : Strobe) (h : s.pollsPass n) (hn : 6 ≤ n) :
    operationalStrobe k s = .ok (s.statusDraw 0)
      (s.busAfter (s.opTraceAt k 0) 1 1 1 (opWaits (s.settles k 0) - 1)) := by
  unfold operationalStrobe
  rw [busRegRead_pass _ h (by omega), Flow.andThen_ok,
    busRegWrite_pass (n := 1) _ _ (Radio.config_not_status (Radio.aux_config _))
      (h.after _ _ _ _ _ _ (by omega)) (by omega), Flow.andThen_ok,
    strobed_eq, tookAsleep_eq]
  simp only [busAfter_busAfter, busAfter_asleepDraw, busAfter_statusDraw]
  rw [settleIfAsleep_pass (n := 1) _ _ (s.settles k 0) (by exact settles_eq s k 0)
      (h.after _ _ _ _ _ _ (by omega)) (by omega), Flow.andThen_ok,
    busAfter_busAfter,
    busRegWrite_pass (n := 1) _ _ (Radio.config_not_status (Radio.aux_config _))
      (h.after _ _ _ _ _ _ (by split <;> omega)) (by omega),
    Flow.andThen_ok, busAfter_busAfter,
    waitFlag_pass (n := 1) _ (h.after _ _ _ _ _ _ (by split <;> omega)) (by omega), Flow.andThen_ok,
    busAfter_busAfter]
  simp only [State.opTraceAt, State.plainTrace, opWaits]
  split <;> simp

theorem legalStrobe_op_pass {s : State} {n : Nat} (k : Strobe) (hk : k.isOperational = true)
    (h : s.pollsPass n) (hn : 7 ≤ n) :
    legalStrobe k s = .ok (s.statusDraw 0)
      (s.busAfter (s.opTraceAt k 0) 1 1 1 (opWaits (s.settles k 0))) := by
  unfold legalStrobe
  rw [waitFlag_pass _ h (by omega), Flow.andThen_ok, if_pos hk,
    operationalStrobe_pass (n := 6) _ (h.after _ _ _ _ _ _ (by omega)) (by omega), busAfter_busAfter]
  have : 1 ≤ opWaits (s.settles k 0) := by unfold opWaits; split <;> omega
  simp [show 1 + (opWaits (s.settles k 0) - 1) = opWaits (s.settles k 0) by omega]

theorem legalStrobe_plain_pass {s : State} {n : Nat} (k : Strobe) (hk : k.isOperational = false)
    (h : s.pollsPass n) (hn : 1 ≤ n) :
    legalStrobe k s = .ok (s.statusDraw 0) (s.busAfter [s.plainTrace k 0] 1 0 0 1) := by
  unfold legalStrobe
  rw [waitFlag_pass _ h hn, Flow.andThen_ok, hk, if_neg (by simp)]
  simp [plainStrobe, strobed_eq, State.plainTrace]

theorem paWriteSingle_pass {s : State} {n : Nat} (v : Byte) (h : s.pollsPass n) (hn : 1 ≤ n) :
    paWriteSingle v s =
      .ok () (s.busAfter [.write (s.cfg.radio.writeByte s.cfg.radio.paTableAddr) [v]] 0 0 0 1) := by
  rw [paWriteSingle, waitFlag_pass _ h hn, Flow.andThen_ok, traced_eq, busAfter_busAfter]
  rfl

theorem paWriteBurst_pass {s : State} {n : Nat} (ds : List Byte) (hd : ds ≠ []) (h : s.pollsPass n)
    (hn : ds.length ≤ n) :
    paWriteBurst ds s =
      .ok () (s.busAfter [.write (s.cfg.radio.burstWriteByte s.cfg.radio.paTableAddr) ds] 0 0 0 ds.length) := by
  rw [paWriteBurst, busBurstWrite_pass _ _ hd h hn]

theorem paPointerReset_pass {s : State} {n : Nat} (h : s.pollsPass n) (hn : 1 ≤ n) :
    paPointerReset s = .ok () (s.busAfter [s.plainTrace .snop 0] 1 0 0 1) := by
  rw [paPointerReset, legalStrobe_plain_pass _ rfl h hn]
  rfl

/-- R102: a code that is one of the radio's. -/
theorem Radio.strobeOf_code (r : Radio) (k : Strobe) : ∃ k', r.strobeOf (r.code k) = some k' := by
  rw [← Option.isSome_iff_exists, Radio.strobeOf, List.find?_isSome]
  exact ⟨k, by cases k <;> simp [Strobe.all], by simp⟩

/-- R102: a code that is none of the radio's. -/
theorem Radio.strobeOf_none {r : Radio} {c : Byte} : r.strobeOf c = none ↔ ∀ k, r.code k ≠ c := by
  rw [Radio.strobeOf, List.find?_eq_none]
  exact ⟨fun h k => by simpa using h k (by cases k <;> simp [Strobe.all]), fun h k _ => by simpa using h k⟩

theorem busStrobe_legal {c : Byte} {s : State} {k : Strobe} (hk : s.cfg.radio.strobeOf c = some k) :
    busStrobe c s = (legalStrobe k s).andThen fun st s => .ok (some st) s := by
  unfold busStrobe; rw [hk]

end Sys2Proof.Machine
end

