-- ==== Sys2Proof/Laws/Commands.lean ====
section
/-! SUPPORT. Everything each host command and the handler can do, said once: the registers written
before a bus sequence, only bus activity in it, and then its end, a bus timeout or a hang. -/

namespace Sys2Proof.Machine

/-! ### Sequences -/

/-- What a sequence can do: go on with `A`, or be cut off at a ready-flag wait with `B`, by a bus
timeout under a finite cap or by a hang under INF. -/
def FlowSpec {α : Type} (cap : Option Nat) (A : α → State → Prop) (B : State → Prop) (f : Flow α) : Prop :=
  match f with
  | .ok a t => A a t
  | .raised c t => c = .busTimeout ∧ cap ≠ none ∧ B t
  | .hung t => cap = none ∧ B t

theorem FlowSpec.andThen {α β : Type} {cap : Option Nat} {A : α → State → Prop} {A' : β → State → Prop}
    {B : State → Prop} {f : Flow α} {g : α → State → Flow β} (hf : FlowSpec cap A B f)
    (hg : ∀ a s, A a s → FlowSpec cap A' B (g a s)) : FlowSpec cap A' B (f.andThen g) := by
  cases f with
  | ok a s => exact hg a s hf
  | raised c s => exact hf
  | hung s => exact hf

theorem FlowSpec.mono {α : Type} {cap : Option Nat} {A A' : α → State → Prop} {B B' : State → Prop}
    {f : Flow α} (hf : FlowSpec cap A B f) (hA : ∀ a s, A a s → A' a s) (hB : ∀ s, B s → B' s) :
    FlowSpec cap A' B' f := by
  cases f with
  | ok a s => exact hA a s hf
  | raised c s => exact ⟨hf.1, hf.2.1, hB _ hf.2.2⟩
  | hung s => exact ⟨hf.1, hB _ hf.2⟩

/-- A bus primitive after bus activity alone since v. -/
theorem BusSpec.flow {α : Type} {v s : State} {f : Flow α} (hs : BusOnly v s) (hf : BusSpec s f) :
    FlowSpec v.cfg.busWaitCap (fun _ t => BusOnly v t) (BusOnly v) f := by
  have hc := hs.cfg
  cases f with
  | ok a t => exact hs.trans hf
  | raised c t => exact ⟨hf.2.1, hc ▸ hf.2.2, hs.trans hf.1⟩
  | hung t => exact ⟨hc ▸ hf.2, hs.trans hf.1⟩

/-- How a host command is cut off at a ready-flag wait, the changes up to v made (R148, R241, R121). -/
def CutOff (cmd : Instr) (v t : State) : Prop :=
  ∃ u, BusOnly v u ∧
    ((v.cfg.busWaitCap ≠ none ∧ t = reply cmd .busTimeout 0 (faultAction .busTimeout u)) ∨
      (v.cfg.busWaitCap = none ∧ t = hang u))

/-- The end of a command whose sequence goes on with `A` or is cut off with `B`. -/
theorem endCommand_cases {cmd : Instr} {cap : Option Nat} {A : Result → State → Prop}
    {B : State → Prop} {f : Flow Result} {t : State} (hf : FlowSpec cap A B f)
    (h : endCommand cmd f = t) :
    (∃ r u, A r u ∧ t = reply cmd r.code r.value u) ∨
    (∃ u, B u ∧ ((cap ≠ none ∧ t = reply cmd .busTimeout 0 (faultAction .busTimeout u)) ∨
      (cap = none ∧ t = hang u))) := by
  subst h
  cases f with
  | ok r u => exact .inl ⟨r, u, hf, rfl⟩
  | raised c u => obtain ⟨rfl, hc, hB⟩ := hf; exact .inr ⟨u, hB, .inl ⟨hc, rfl⟩⟩
  | hung u => exact .inr ⟨u, hf.2, .inr ⟨hf.1, rfl⟩⟩

theorem BusOnly.clearFlags {s t : State} (h : BusOnly s t) : BusOnly (clearFlags s) (clearFlags t) := by
  obtain ⟨n, p, q, r, w, rfl⟩ := h; exact ⟨n, p, q, r, w, rfl⟩

theorem BusOnly.setLink {s t : State} (l : LinkState) (h : BusOnly s t) :
    BusOnly (setLink l s) (setLink l t) := by
  obtain ⟨n, p, q, r, w, rfl⟩ := h; exact ⟨n, p, q, r, w, rfl⟩

theorem BusOnly.arm {s t : State} (h : BusOnly s t) : BusOnly (arm s) (arm t) := by
  obtain ⟨n, p, q, r, w, rfl⟩ := h; exact ⟨n, p, q, r, w, rfl⟩

/-! ### The host commands -/

/-- R149: a command that issues bus transactions is turned away before INIT. -/
theorem ifInitialized_next {cmd : Instr} {s t : State}
    {body : State → Host.Outcome State Fault Refusal} (h : ifInitialized cmd s body = .next t) :
    (s.initDone = false ∧ t = reply cmd .notInitialized 0 s) ∨ (s.initDone = true ∧ body s = .next t) := by
  unfold ifInitialized at h
  split at h
  · next hi => exact .inr ⟨hi, h⟩
  · next hi =>
    simp only [Host.Outcome.next.injEq] at h
    exact .inl ⟨by simpa using hi, h.symm⟩

/-- R150: INIT. -/
theorem execInit_next {s t : State} (h : execInit s = .next t) :
    CutOff .init s t ∨ CutOff .init (clearFlags s) t ∨
    ∃ u, BusOnly (clearFlags s) u ∧ t = reply .init .ok 0 (setInitDone u) := by
  simp only [execInit, Host.Outcome.next.injEq] at h
  have hf : FlowSpec s.cfg.busWaitCap
      (fun r u => r = { code := .ok, value := 0 } ∧ ∃ u', BusOnly (clearFlags s) u' ∧ u = setInitDone u')
      (fun u => BusOnly s u ∨ BusOnly (clearFlags s) u) (initSequence s) := by
    refine FlowSpec.andThen (A := fun _ u => BusOnly s u)
      (((legalStrobe_spec _ _).flow (.refl s)).mono (fun _ _ h => h) fun _ => .inl) fun _ u hu => ?_
    refine FlowSpec.andThen (A := fun _ u => BusOnly s u)
      (((legalStrobe_spec _ _).flow hu).mono (fun _ _ h => h) fun _ => .inl) fun _ u hu => ?_
    refine FlowSpec.andThen (A := fun _ u => BusOnly (clearFlags s) u)
      (((writeConfig_spec _ _).flow hu.clearFlags).mono (fun _ _ h => h) fun _ => .inr) fun _ u hu => ?_
    refine FlowSpec.andThen (A := fun _ u => BusOnly (clearFlags s) u)
      (((busPaWrite_spec _ _).flow hu).mono (fun _ _ h => h) fun _ => .inr) fun _ u hu => ?_
    exact ⟨rfl, u, hu, rfl⟩
  rcases endCommand_cases hf h with ⟨r, u, ⟨rfl, u', hu, rfl⟩, ht⟩ | ⟨u, hu | hu, ht⟩
  · exact .inr (.inr ⟨u', hu, ht⟩)
  · exact .inl ⟨u, hu, ht⟩
  · exact .inr (.inl ⟨u, hu, ht⟩)

/-- R152: ENTER_LISTEN. -/
theorem execEnterListen_next {s t : State} (h : execEnterListen s = .next t) :
    (∃ code, t = reply .enterListen code 0 s ∧ code ≠ .ok ∧ code ≠ .notIdle) ∨
    (s.initDone = true ∧ s.linkState = .idle ∧ (CutOff .enterListen (arm s) t ∨
      ∃ u, BusOnly (arm s) u ∧ t = reply .enterListen .ok 0 (setLink .listening u))) := by
  rcases ifInitialized_next h with ⟨-, rfl⟩ | ⟨hi, h⟩
  · exact .inl ⟨_, rfl, by decide, by decide⟩
  split at h
  · next hl =>
    simp only [Host.Outcome.next.injEq] at h
    have hf : FlowSpec (arm s).cfg.busWaitCap
        (fun r u => r = { code := .ok, value := 0 } ∧ ∃ u', BusOnly (arm s) u' ∧ u = setLink .listening u')
        (BusOnly (arm s)) (enterListening s) :=
      ((legalStrobe_spec _ _).flow (.refl _)).andThen fun _ u hu => ⟨rfl, u, hu, rfl⟩
    rcases endCommand_cases hf h with ⟨r, u, ⟨rfl, u', hu, rfl⟩, ht⟩ | ht
    · exact .inr ⟨hi, hl, .inr ⟨u', hu, ht⟩⟩
    · exact .inr ⟨hi, hl, .inl ht⟩
  · simp only [Host.Outcome.next.injEq] at h
    exact .inl ⟨_, h.symm, by decide, by decide⟩

/-- R155: leaving Listening. -/
theorem exitListening_spec (s : State) :
    FlowSpec s.cfg.busWaitCap (fun _ u => ∃ u', BusOnly (disarm s) u' ∧ u = setLink .idle u')
      (BusOnly (disarm s)) (exitListening s) :=
  ((legalStrobe_spec _ _).flow (v := disarm s) (.refl _)).andThen fun _ _ hu =>
    ((legalStrobe_spec _ _).flow hu).andThen fun _ u hu => ⟨u, hu, rfl⟩

/-- R154: EXIT_LISTEN. -/
theorem execExitListen_next {s t : State} (h : execExitListen s = .next t) :
    (∃ code, t = reply .exitListen code 0 s ∧ code ≠ .ok ∧ code ≠ .notIdle) ∨
    (s.initDone = true ∧ s.linkState = .listening ∧ (CutOff .exitListen (disarm s) t ∨
      ∃ u, BusOnly (disarm s) u ∧ t = reply .exitListen .ok 0 (setLink .idle u))) := by
  rcases ifInitialized_next h with ⟨-, rfl⟩ | ⟨hi, h⟩
  · exact .inl ⟨_, rfl, by decide, by decide⟩
  split at h
  · next hl =>
    simp only [Host.Outcome.next.injEq] at h
    have hf := (exitListening_spec s).andThen
      (A' := fun (r : Result) u => r = { code := .ok, value := 0 } ∧ ∃ u', BusOnly (disarm s) u' ∧ u = setLink .idle u')
      (g := fun _ s => Flow.ok (Result.mk .ok 0) s) fun _ _ hu => ⟨rfl, hu⟩
    rcases endCommand_cases hf h with ⟨r, u, ⟨rfl, u', hu, rfl⟩, ht⟩ | ht
    · exact .inr ⟨hi, hl, .inr ⟨u', hu, ht⟩⟩
    · exact .inr ⟨hi, hl, .inl ht⟩
  · simp only [Host.Outcome.next.injEq] at h
    exact .inl ⟨_, h.symm, by decide, by decide⟩

/-- R157: the state a transmission starts from, Listening left. -/
def leftListening (s : State) : State := if s.linkState = .listening then setLink .idle (disarm s) else s

/-- Where a transmission start can be cut off: while Listening is left, or after the interrupt is
armed. -/
def TxCut (s u : State) : Prop :=
  (s.linkState = .listening ∧ BusOnly (disarm s) u) ∨ BusOnly (arm (leftListening s)) u

theorem leaveListening_spec (s : State) :
    FlowSpec s.cfg.busWaitCap (fun _ u => BusOnly (leftListening s) u) (TxCut s) (leaveListening s) := by
  unfold leaveListening
  split
  · next hl =>
    refine (exitListening_spec s).mono ?_ fun _ hu => .inl ⟨hl, hu⟩
    rintro _ _ ⟨u', hu, rfl⟩
    simpa [leftListening, hl] using hu.setLink .idle
  · next hl => simpa [FlowSpec, leftListening, hl] using BusOnly.refl s

theorem leftListening_cfg (s : State) : (leftListening s).cfg = s.cfg := by
  unfold leftListening; split <;> rfl

/-- R157: a transmission start. -/
theorem txStart_spec (ds : List Byte) (s : State) :
    FlowSpec s.cfg.busWaitCap
      (fun _ u => ∃ u', BusOnly (arm (leftListening s)) u' ∧ u = setLink .transmitting u')
      (TxCut s) (txStart ds s) := by
  have hc : s.cfg.busWaitCap = (arm (leftListening s)).cfg.busWaitCap := by
    rw [show (arm (leftListening s)).cfg = (leftListening s).cfg from rfl, leftListening_cfg]
  refine (leaveListening_spec s).andThen fun _ u hu => ?_
  rw [hc]
  refine FlowSpec.andThen
    (((busBurstWrite_spec _ _ _).flow hu.arm).mono (fun _ _ h => h) fun _ => .inr) fun _ u hu => ?_
  exact FlowSpec.andThen
    (((legalStrobe_spec _ _).flow hu).mono (fun _ _ h => h) fun _ => .inr) fun _ u hu => ⟨u, hu, rfl⟩

/-- R156: BEGIN_TX. -/
theorem execBeginTx_next {ds : List Byte} {s t : State} (h : execBeginTx ds s = .next t) :
    (∃ code, t = reply (.beginTx ds) code 0 s ∧ code ≠ .ok ∧ code ≠ .notIdle) ∨
    (s.initDone = true ∧ s.linkState ≠ .transmitting ∧
      ((∃ u, TxCut s u ∧
        ((s.cfg.busWaitCap ≠ none ∧ t = reply (.beginTx ds) .busTimeout 0 (faultAction .busTimeout u)) ∨
          (s.cfg.busWaitCap = none ∧ t = hang u))) ∨
      ∃ u, BusOnly (arm (leftListening s)) u ∧
        t = reply (.beginTx ds) .ok 0 (setLink .transmitting u))) := by
  rcases ifInitialized_next h with ⟨-, rfl⟩ | ⟨hi, h⟩
  · exact .inl ⟨_, rfl, by decide, by decide⟩
  split at h
  · simp only [Host.Outcome.next.injEq] at h
    exact .inl ⟨_, h.symm, by decide, by decide⟩
  next hl =>
  split at h
  · simp only [Host.Outcome.next.injEq] at h
    have hf := (txStart_spec ds s).andThen
      (A' := fun (r : Result) u => r = { code := .ok, value := 0 } ∧
        ∃ u', BusOnly (arm (leftListening s)) u' ∧ u = setLink .transmitting u')
      (g := fun _ s => Flow.ok (Result.mk .ok 0) s) fun _ _ hu => ⟨rfl, hu⟩
    rcases endCommand_cases hf h with ⟨r, u, ⟨rfl, u', hu, rfl⟩, ht⟩ | ht
    · exact .inr ⟨hi, hl, .inr ⟨u', hu, ht⟩⟩
    · exact .inr ⟨hi, hl, .inl ht⟩
  · simp only [Host.Outcome.next.injEq] at h
    exact .inl ⟨_, h.symm, by decide, by decide⟩

/-- R212, R213: both forms of SEND_NEXT. -/
theorem sendNext_next {cmd : Instr} {pick : State → Option Nat} {s t : State}
    (h : sendNext cmd pick s = .next t) :
    t = reply cmd .ok 0 s ∨
    (s.linkState ≠ .transmitting ∧ s.txqCount ≠ 0 ∧ s.txqCount.toNat ≤ s.cfg.txqCap ∧
      ∃ len, pick s = some len ∧
        ((∃ u, TxCut (compact len s) u ∧
          ((s.cfg.busWaitCap ≠ none ∧ t = reply cmd .busTimeout 0 (faultAction .busTimeout u)) ∨
            (s.cfg.busWaitCap = none ∧ t = hang u))) ∨
        ∃ u, BusOnly (arm (leftListening (compact len s))) u ∧
          t = reply cmd .ok (BitVec.ofNat 32 len) (setLink .transmitting u))) := by
  unfold sendNext at h
  split at h
  · simp only [Host.Outcome.next.injEq] at h; exact .inl h.symm
  next hl =>
  split at h
  · simp only [Host.Outcome.next.injEq] at h; exact .inl h.symm
  next hz =>
  split at h
  · next hc =>
    split at h
    · simp only [Host.Outcome.next.injEq] at h; exact .inl h.symm
    · next len hp =>
      simp only [Host.Outcome.next.injEq] at h
      have hf := (txStart_spec (memRead Config.unspecTxq s.txq 0 len) (compact len s)).andThen
        (A' := fun (r : Result) u => r = { code := .ok, value := BitVec.ofNat 32 len } ∧
          ∃ u', BusOnly (arm (leftListening (compact len s))) u' ∧ u = setLink .transmitting u')
        (g := fun _ s => Flow.ok (Result.mk .ok (BitVec.ofNat 32 len)) s) fun _ _ hu => ⟨rfl, hu⟩
      refine .inr ⟨hl, hz, by simpa [countInQueue] using hc, len, hp, ?_⟩
      rcases endCommand_cases hf h with ⟨r, u, ⟨rfl, u', hu, rfl⟩, ht⟩ | ht
      · exact .inr ⟨u', hu, ht⟩
      · exact .inl ht
  · cases h

/-- R160: WAIT_IDLE_POLL. -/
theorem execWaitIdlePoll_next {s t : State} (h : execWaitIdlePoll s = .next t) :
    t = reply .waitIdlePoll .notInitialized 0 s ∨
    (s.initDone = true ∧ (CutOff .waitIdlePoll s t ∨ ∃ (u : State) (st : Byte), BusOnly s u ∧
      (t = reply .waitIdlePoll .ok (st.setWidth 32) (setWaitCnt 0 u) ∨
        (s.cfg.waitCap ≤ s.waitCnt.toNat + 1 ∧
          t = reply .waitIdlePoll .waitTimeout 0 (faultAction .waitTimeout (setWaitCnt 0 u))) ∨
        (s.waitCnt.toNat + 1 < s.cfg.waitCap ∧
          t = reply .waitIdlePoll .notIdle (st.setWidth 32) (setWaitCnt (s.waitCnt + 1) u))))) := by
  rcases ifInitialized_next h with ⟨-, rfl⟩ | ⟨hi, h⟩
  · exact .inl rfl
  simp only [Host.Outcome.next.injEq] at h
  subst h
  have hf := legalStrobe_spec .snop s
  refine .inr ⟨hi, ?_⟩
  cases hx : legalStrobe .snop s with
  | ok st u =>
    rw [hx] at hf
    refine .inr ⟨u, st, hf, ?_⟩
    have hw : u.waitCnt = s.waitCnt ∧ u.cfg = s.cfg := by
      obtain ⟨_, _, _, _, _, rfl⟩ := hf; exact ⟨rfl, rfl⟩
    rw [Flow.andThen_ok, judgePoll]
    split
    · exact .inl rfl
    · split
      · next h2 => exact .inr (.inl ⟨by rw [← hw.1, ← hw.2]; exact h2, rfl⟩)
      · next h2 => exact .inr (.inr ⟨by rw [← hw.1, ← hw.2]; omega, by rw [← hw.1]; rfl⟩)
  | raised c u =>
    rw [hx] at hf
    obtain ⟨h1, rfl, h3⟩ := hf
    exact .inl ⟨u, h1, .inl ⟨h3, rfl⟩⟩
  | hung u =>
    rw [hx] at hf
    exact .inl ⟨u, hf.1, .inr ⟨hf.2, rfl⟩⟩

/-! ### The handler -/

theorem burstBytes_length {n : Nat} {s t : State} {bs : List Byte} (h : burstBytes n s = .ok bs t) :
    bs.length = n := by
  induction n generalizing s bs t with
  | zero => simp only [burstBytes, Flow.ok.injEq] at h; simp [← h.1]
  | succ n ih =>
    rw [burstBytes] at h
    cases hw : waitFlag .doutRdy s with
    | ok a u =>
      rw [hw, Flow.andThen_ok] at h
      cases hb : burstBytes n u.tookData with
      | ok bs' u' =>
        rw [hb, Flow.andThen_ok] at h
        simp only [Flow.ok.injEq] at h
        simp [← h.1, ih hb]
      | raised c u' => rw [hb] at h; cases h
      | hung u' => rw [hb] at h; cases h
    | raised c u => rw [hw] at h; cases h
    | hung u => rw [hw] at h; cases h

theorem busBurstRead_length {a : Addr} {n : Nat} {s t : State} {bs : List Byte}
    (h : busBurstRead a n s = .ok bs t) : bs.length = n := by
  unfold busBurstRead at h
  split at h
  · next hn => simp only [Flow.ok.injEq] at h; simp [← h.1, hn]
  · cases hw : waitFlag .instrRdy s with
    | ok a u =>
      rw [hw, Flow.andThen_ok] at h
      cases hb : burstBytes n u with
      | ok bs' u' =>
        rw [hb, Flow.andThen_ok] at h
        simp only [Flow.ok.injEq] at h
        rw [← h.1]; exact burstBytes_length hb
      | raised c u' => rw [hb] at h; cases h
      | hung u' => rw [hb] at h; cases h
    | raised c u => rw [hw] at h; cases h
    | hung u => rw [hw] at h; cases h

/-- What the receive parser can do from v on: end with bus activity alone, by a fault named in
`early`, a hang, or with a frame of n bytes read, its CRC wrong or the frame delivered. -/
def DrainSpec (v : State) (f : Flow Unit) : Prop :=
  (∃ u, BusOnly v u ∧ ((v.cfg.busWaitCap = none ∧ f = .hung u) ∨
    ∃ c ∈ [FaultCause.busTimeout, .stateMismatch, .shortFrame, .frameOverflow], f = .raised c u)) ∨
  ∃ (u : State) (bs : List Byte), BusOnly v u ∧ 4 ≤ bs.length ∧ bs.length ≤ v.cfg.rxCap ∧
    (f = .raised .crcFailure (storeFrame bs u) ∨ f = .ok () (deliver bs.length (storeFrame bs u)))

theorem BusSpec.drain {α : Type} {v s : State} {f : Flow α} {g : α → State → Flow Unit}
    (hs : BusOnly v s) (hf : BusSpec s f)
    (hg : ∀ a t, f = .ok a t → BusOnly v t → DrainSpec v (g a t)) : DrainSpec v (f.andThen g) := by
  cases f with
  | ok a t => exact hg a t rfl (hs.trans hf)
  | raised c t =>
    obtain ⟨h1, rfl, -⟩ := hf
    exact .inl ⟨t, hs.trans h1, .inr ⟨_, by simp, rfl⟩⟩
  | hung t => exact .inl ⟨t, hs.trans hf.1, .inl ⟨hs.cfg ▸ hf.2, rfl⟩⟩

/-- R191 to R197: everything the receive parser can do. -/
theorem rxDrain_spec (s : State) : DrainSpec (setLink .idle s) (rxDrain s) := by
  refine (legalStrobe_spec _ _).drain (.refl _) fun st t _ ht => ?_
  unfold checkIdle
  split
  · rw [Flow.andThen_ok]
    refine (busRegRead_spec _ _).drain ht fun n t _ ht => ?_
    unfold checkCount
    split
    · exact .inl ⟨t, ht, .inr ⟨_, by simp, rfl⟩⟩
    next h4 =>
    split
    · exact .inl ⟨t, ht, .inr ⟨_, by simp, rfl⟩⟩
    next hc =>
    refine (busBurstRead_spec _ _ _).drain ht fun bs u hbs hu => ?_
    have hl := busBurstRead_length hbs
    refine .inr ⟨u, bs, hu, by omega, by rw [← ht.cfg]; omega, ?_⟩
    rw [hl]
    dsimp only
    split
    · exact .inr rfl
    · exact .inl rfl
  · exact .inl ⟨t, ht, .inr ⟨_, by simp, rfl⟩⟩

/-- R171, R199: everything the handler can do in Listening. -/
theorem handlerListening_cases (s : State) :
    (∃ u, BusOnly (setLink .idle s) u ∧
      ((s.cfg.busWaitCap = none ∧ handlerListening s = hang u) ∨
        ∃ c ∈ [FaultCause.busTimeout, .stateMismatch, .shortFrame, .frameOverflow],
          handlerListening s = parserFault c u)) ∨
    ∃ (u : State) (bs : List Byte), BusOnly (setLink .idle s) u ∧ 4 ≤ bs.length ∧
      bs.length ≤ s.cfg.rxCap ∧
      (handlerListening s = parserFault .crcFailure (storeFrame bs u) ∨
        handlerListening s = handlerReturn (deliver bs.length (storeFrame bs u))) := by
  have h := rxDrain_spec s
  unfold handlerListening
  rcases h with ⟨u, hu, ⟨hc, hf⟩ | ⟨c, hc, hf⟩⟩ | ⟨u, bs, hu, h4, hl, hf | hf⟩ <;> rw [hf]
  · exact .inl ⟨u, hu, .inl ⟨hc, rfl⟩⟩
  · exact .inl ⟨u, hu, .inr ⟨c, hc, rfl⟩⟩
  · exact .inr ⟨u, bs, hu, h4, hl, .inl rfl⟩
  · exact .inr ⟨u, bs, hu, h4, hl, .inr rfl⟩

/-- R197: a delivery writes LAST_RX, the sink log, and takes the sink's answer. -/
theorem deliver_cases (n : Nat) (s : State) :
    (s.roomDraw 0 < n - 3 ∧ deliver n s = setLastRx .sinkOverflow s.tookRoom) ∨
    (n - 3 ≤ s.roomDraw 0 ∧ deliver n s = setLastRx .ok (toSink
      { payload := rxPayload (rxFrame s n) n, rssi := rxRssi (rxFrame s n) n,
        lqi := rxLqi (rxFrame s n) n } s.tookRoom)) := by
  unfold deliver
  split
  · next h => exact .inl ⟨h, rfl⟩
  · next h => exact .inr ⟨by omega, rfl⟩

/-! ### The step -/

/-- R10, R11: everything a step can do. -/
theorem step_next {s t : State} (h : step s = .next t) : s.cfg.wf = true ∧
    ((s.hung = true ∧ t = hungTurn s) ∨
    (s.hung = false ∧
      ((s.inputs = [] ∧ t = handlerTurn s) ∨
      (∃ rest, s.inputs = .handler :: rest ∧ t = handlerTurn (dropInput s)) ∨
      (∃ rest, s.inputs = .lineFall :: rest ∧ t = latchEdge (dropInput s)) ∨
      (∃ rest, s.inputs = .lineRise :: rest ∧ t = dropInput s) ∨
      (∃ bytes rest i left, s.inputs = .host bytes :: rest ∧ decodeHost bytes = .instr i left ∧
        exec i (consumeHost left s) = .next t) ∨
      (∃ bytes rest i left, s.inputs = .call bytes :: rest ∧ s.openBus = true ∧ decodeBus bytes = .instr i left ∧
        exec i (consumeCall left s) = .next t)))) := by
  unfold step at h
  split at h
  · next hw =>
    refine ⟨hw, ?_⟩
    split at h
    · next hh => simp only [Host.Outcome.next.injEq] at h; exact .inl ⟨hh, h.symm⟩
    · next hh =>
      refine .inr ⟨by simpa using hh, ?_⟩
      split at h
      · next hi => simp only [Host.Outcome.next.injEq] at h; exact .inl ⟨hi, h.symm⟩
      · next rest hi =>
        simp only [Host.Outcome.next.injEq] at h; exact .inr (.inl ⟨rest, hi, h.symm⟩)
      · next rest hi =>
        simp only [Host.Outcome.next.injEq] at h; exact .inr (.inr (.inl ⟨rest, hi, h.symm⟩))
      · next rest hi =>
        simp only [Host.Outcome.next.injEq] at h; exact .inr (.inr (.inr (.inl ⟨rest, hi, h.symm⟩)))
      · next bytes rest hi =>
        split at h
        · next i left hd =>
          exact .inr (.inr (.inr (.inr (.inl ⟨bytes, rest, i, left, hi, hd, h⟩))))
        · cases h
      · next bytes rest hi =>
        split at h
        · next ho =>
          split at h
          · next i left hd =>
            exact .inr (.inr (.inr (.inr (.inr ⟨bytes, rest, i, left, hi, ho, hd, h⟩))))
          · cases h
        · cases h
  · cases h

end Sys2Proof.Machine
end

