-- ==== Sys2Proof/Laws/Decode.lean ====
section
/-! SUPPORT. What the decoders read from the encoder's bytes: counted data, and the fields of each
instruction byte at every address. -/

namespace Sys2Proof

open Machine

/-- R90: a count byte and its data read back, whatever follows. -/
theorem takeCounted_counted (f : List Byte → Instr) (ds rest : List Byte) (h : fitsCount ds = true) :
    takeCounted f (counted ds ++ rest) = .instr (f ds) rest := by
  have h : ds.length ≤ 255 := by simpa [fitsCount] using h
  have e : (BitVec.ofNat 8 ds.length).toNat = ds.length := by simp; omega
  simp [takeCounted, counted, e]

/-- R100, R105: a single write's byte. -/
theorem writeByte_fields : ∀ a : Addr, (!Radio.spec.isStatusAddr a && a != Radio.spec.paTableAddr) = true →
    strobeTable.lookup (Radio.spec.writeByte a) = none ∧ addrOf (Radio.spec.writeByte a) = a ∧
    readBit (Radio.spec.writeByte a) = false ∧ burstBit (Radio.spec.writeByte a) = false ∧
    a ≠ Radio.spec.paTableAddr := by decide

/-- R100, R105: a configuration read's byte. -/
theorem configReadByte_fields : ∀ a : Addr, Radio.spec.isConfigAddr a = true →
    strobeTable.lookup (Radio.spec.configReadByte a) = none ∧ addrOf (Radio.spec.configReadByte a) = a ∧
    readBit (Radio.spec.configReadByte a) = true ∧ burstBit (Radio.spec.configReadByte a) = false := by decide

/-- R100, R106: a burst write's byte. -/
theorem burstWriteByte_fields : ∀ a : Addr,
    strobeTable.lookup (Radio.spec.burstWriteByte a) = none ∧ addrOf (Radio.spec.burstWriteByte a) = a ∧
    readBit (Radio.spec.burstWriteByte a) = false ∧ burstBit (Radio.spec.burstWriteByte a) = true := by decide

/-- R105: a status read's byte, one of a burst read. -/
theorem statusReadByte_eq (a : Addr) : Radio.spec.statusReadByte a = Radio.spec.burstReadByte a := rfl

/-- R100, R106: a burst read's or status read's byte. -/
theorem burstReadByte_fields : ∀ a : Addr,
    strobeTable.lookup (Radio.spec.burstReadByte a) = none ∧ addrOf (Radio.spec.burstReadByte a) = a ∧
    readBit (Radio.spec.burstReadByte a) = true ∧ burstBit (Radio.spec.burstReadByte a) = true := by decide

/-- R93: an illegal opcode is in neither table. -/
theorem illegalOpcode_lookup : ∀ op : Byte, isIllegalOpcode op = true →
    h0Table.lookup op = none ∧ op ≠ opBeginTx ∧ op ≠ opAppend := by decide

end Sys2Proof
end

