-- ==== Sys2Proof/Laws/Memory.lean ====
section
/-! SUPPORT. The laws of the byte memories: reads after writes, the canonical form, and which indices a
memory lists. -/

namespace Sys2Proof.Machine

variable (m : Memory) (free : Nat → Byte)

theorem memGet?_nil (k : Nat) : memGet? [] k = none := rfl

theorem memGet?_cons (c : Host.Cell) (k : Nat) :
    memGet? (c :: m) k = if k = c.1 then some c.2 else memGet? m k := by
  by_cases h : k = c.1
  · subst h; simp [memGet?, List.lookup]
  · have : (k == c.1) = false := by simpa using h
    simp [memGet?, List.lookup, h, this]

theorem memGet?_memSet (k j : Nat) (b : Byte) :
    memGet? (memSet m k b) j = if j = k then some b else memGet? m j := by
  induction m with
  | nil => simp [memSet, memGet?_cons]
  | cons c m ih =>
    unfold memSet
    split
    · simp [memGet?_cons]
    · split
      · rename_i h; subst h; by_cases h : j = c.1 <;> simp [memGet?_cons, h]
      · rename_i hne
        by_cases h : j = c.1
        · have : j ≠ k := fun e => hne (e.symm.trans h)
          simp only [memGet?_cons, h, if_true, if_neg (h ▸ this)]
        · simp [memGet?_cons, ih, h]

theorem memGet?_memWrite (k j : Nat) (bs : List Byte) :
    memGet? (memWrite m k bs) j = if k ≤ j ∧ j < k + bs.length then bs[j - k]? else memGet? m j := by
  induction bs generalizing m k with
  | nil => rw [if_neg (by simp)]; rfl
  | cons b bs ih =>
    rw [memWrite, ih, memGet?_memSet]
    by_cases hj : j = k
    · subst hj; simp
    · by_cases h : k ≤ j ∧ j < k + (bs.length + 1)
      · have e : j - k = (j - (k + 1)) + 1 := by omega
        have h1 : k + 1 ≤ j ∧ j < k + 1 + bs.length := by omega
        simp only [h1, and_self, if_true, List.length_cons, h, e, List.getElem?_cons_succ]
      · have h1 : ¬ (k + 1 ≤ j ∧ j < k + 1 + bs.length) := by omega
        simp only [h1, if_false, List.length_cons, h, hj]

theorem memGet?_memForget (k j : Nat) :
    memGet? (memForget m k) j = if j < k then memGet? m j else none := by
  induction m with
  | nil => simp [memForget, memGet?_nil]
  | cons c m ih =>
    unfold memForget at ih ⊢
    rw [List.filter_cons]
    by_cases hc : c.1 < k
    · by_cases hj : j = c.1
      · subst hj; simp [memGet?_cons, hc]
      · simp [memGet?_cons, hc, hj, ih]
    · by_cases hj : j = c.1
      · subst hj; simp [hc, ih]
      · simp [memGet?_cons, hc, hj, ih]

theorem mem_memSet {k : Nat} {b : Byte} {c : Host.Cell} (h : c ∈ memSet m k b) : c = (k, b) ∨ c ∈ m := by
  induction m with
  | nil => simpa [memSet] using h
  | cons d m ih =>
    unfold memSet at h
    split at h
    · simpa using h
    · split at h
      · rcases List.mem_cons.1 h with h | h
        · exact .inl h
        · exact .inr (List.mem_cons_of_mem _ h)
      · rcases List.mem_cons.1 h with h | h
        · exact .inr (h ▸ List.mem_cons_self)
        · exact (ih h).imp id (List.mem_cons_of_mem _)

theorem mem_memWrite {k : Nat} {bs : List Byte} {c : Host.Cell} (h : c ∈ memWrite m k bs) :
    (k ≤ c.1 ∧ c.1 < k + bs.length) ∨ c ∈ m := by
  induction bs generalizing m k with
  | nil => exact .inr h
  | cons b bs ih =>
    rcases ih _ h with h | h
    · left; simp; omega
    · rcases mem_memSet _ h with h | h
      · subst h; left; simp
      · exact .inr h

theorem memSet_wf {m : Memory} (h : Memory.wf m) (k : Nat) (b : Byte) : Memory.wf (memSet m k b) := by
  induction m with
  | nil => simp [memSet, Memory.wf]
  | cons c m ih =>
    have hc := List.pairwise_cons.1 h
    unfold memSet
    split
    · rename_i hk
      refine List.pairwise_cons.2 ⟨fun x hx => ?_, h⟩
      rcases List.mem_cons.1 hx with e | e
      · omega
      · exact Nat.lt_trans hk (hc.1 x e)
    · split
      · rename_i hk; subst hk; exact h
      · refine List.pairwise_cons.2 ⟨fun x hx => ?_, ih hc.2⟩
        obtain ⟨d, hd, rfl⟩ := List.mem_map.1 hx
        rcases mem_memSet _ hd with e | e
        · subst e; simp; omega
        · exact hc.1 _ (List.mem_map.2 ⟨d, e, rfl⟩)

/-- Every write keeps the canonical form. -/
theorem memWrite_wf {m : Memory} (h : Memory.wf m) (k : Nat) (bs : List Byte) :
    Memory.wf (memWrite m k bs) := by
  induction bs generalizing m k with
  | nil => exact h
  | cons b bs ih => exact ih (memSet_wf h k b) (k + 1)

/-- Forgetting keeps the canonical form. -/
theorem memForget_wf {m : Memory} (h : Memory.wf m) (k : Nat) : Memory.wf (memForget m k) :=
  List.Pairwise.sublist (List.Sublist.map _ List.filter_sublist) h

theorem mem_memForget {k : Nat} {c : Host.Cell} (h : c ∈ memForget m k) : c ∈ m ∧ c.1 < k := by
  simpa [memForget] using h

@[simp] theorem memRead_length (k n : Nat) : (memRead free m k n).length = n := by
  induction n generalizing k with
  | zero => rfl
  | succ n ih => simp [memRead, ih]

theorem memRead_add (k a b : Nat) :
    memRead free m k (a + b) = memRead free m k a ++ memRead free m (k + a) b := by
  induction a generalizing k with
  | zero => simp [memRead]
  | succ a ih => rw [Nat.succ_add, memRead, memRead, ih]; simp [Nat.add_assoc, Nat.add_comm 1 a]

theorem memRead_getElem? (k n i : Nat) :
    (memRead free m k n)[i]? = if i < n then some ((memGet? m (k + i)).getD (free (k + i))) else none := by
  induction n generalizing k i with
  | zero => simp [memRead]
  | succ n ih =>
    cases i with
    | zero => simp [memRead]
    | succ i =>
      simp only [memRead, List.getElem?_cons_succ, ih]
      rw [show k + 1 + i = k + (i + 1) by omega]; simp

/-- A read depends only on the bytes of its range. -/
theorem memRead_congr {m m' : Memory} {k k' n : Nat}
    (h : ∀ i < n, (memGet? m (k + i)).getD (free (k + i)) = (memGet? m' (k' + i)).getD (free (k' + i))) :
    memRead free m k n = memRead free m' k' n := by
  apply List.ext_getElem?
  intro i
  rw [memRead_getElem?, memRead_getElem?]
  by_cases hi : i < n
  · simp [hi, h i hi]
  · simp [hi]

/-- Reading back what was written. -/
theorem memRead_memWrite (k : Nat) (bs : List Byte) :
    memRead free (memWrite m k bs) k bs.length = bs := by
  apply List.ext_getElem?
  intro i
  rw [memRead_getElem?, memGet?_memWrite]
  by_cases hi : i < bs.length
  · simp [hi, show k ≤ k + i by omega]
  · simp [hi]

/-- A write outside the range read is not seen. -/
theorem memRead_memWrite_disjoint (k n j : Nat) (bs : List Byte) (h : k + n ≤ j ∨ j + bs.length ≤ k) :
    memRead free (memWrite m j bs) k n = memRead free m k n := by
  apply memRead_congr
  intro i hi
  rw [memGet?_memWrite, if_neg (by omega)]

/-- Forgetting above the range read is not seen. -/
theorem memRead_memForget (k n j : Nat) (h : k + n ≤ j) :
    memRead free (memForget m j) k n = memRead free m k n := by
  apply memRead_congr
  intro i hi
  rw [memGet?_memForget, if_pos (by omega)]

end Sys2Proof.Machine
end

