-- ==== Sys2Proof/Laws/Operands.lean ====
section
/-! SUPPORT. The operand checks as propositions, and what the queue's and the poll's shared operations
do. -/

namespace Sys2Proof.Machine

theorem payloadFits_iff (c : Config.Params) (ds : List Byte) :
    payloadFits c ds = true ↔ 1 ≤ ds.length ∧ ds.length ≤ c.maxPayload := by
  rw [payloadFits, Bool.and_eq_true, decide_eq_true_eq, decide_eq_true_eq]; rfl

theorem queueLacks_iff (s : State) (n : Nat) :
    queueLacks s n = true ↔ s.cfg.txqCap < s.txqCount.toNat + n := by
  rw [queueLacks, decide_eq_true_eq]

theorem countInQueue_iff (s : State) : countInQueue s = true ↔ s.txqCount.toNat ≤ s.cfg.txqCap := by
  rw [countInQueue, decide_eq_true_eq]

theorem reportsIdle_iff (s : State) (st : Byte) :
    s.cfg.radio.reportsIdle st = true ↔ s.seesIdle st := by
  rw [Radio.reportsIdle, beq_iff_eq]; rfl

/-- R160: the poll saw Idle. -/
theorem judgePoll_idle {st : Byte} {s : State} (h : s.seesIdle st) :
    judgePoll st s = .ok { code := .ok, value := st.setWidth 32 } (setWaitCnt 0 s) := by
  rw [judgePoll, if_pos ((reportsIdle_iff _ _).2 h)]

/-- R160: poll number WAIT_CAP without Idle. -/
theorem judgePoll_timeout {st : Byte} {s : State} (h : ¬ s.seesIdle st)
    (hc : s.cfg.waitCap ≤ s.waitCnt.toNat + 1) :
    judgePoll st s = .raised .waitTimeout (setWaitCnt 0 s) := by
  rw [judgePoll, if_neg (by rwa [reportsIdle_iff]), if_pos hc]

/-- R160: an earlier poll without Idle. -/
theorem judgePoll_notIdle {st : Byte} {s : State} (h : ¬ s.seesIdle st)
    (hc : s.waitCnt.toNat + 1 < s.cfg.waitCap) :
    judgePoll st s =
      .ok { code := .notIdle, value := st.setWidth 32 } (setWaitCnt (s.waitCnt + 1) s) := by
  rw [judgePoll, if_neg (by rwa [reportsIdle_iff]), if_neg (by omega)]

/-- R15: what a well-formed configuration bounds. -/
theorem Params_wf_bounds {c : Config.Params} (h : c.wf = true) :
    c.txqCap ≤ c.maxPayload ∧ c.maxPayload ≤ 255 ∧ 4 ≤ c.rxCap ∧ c.rxCap ≤ 255 ∧ c.waitCap ≤ 255 := by
  simp only [Config.Params.wf, Bool.and_eq_true, decide_eq_true_eq] at h
  omega

@[simp] theorem queueBytes_length (s : State) : (queueBytes s).length = s.txqCount.toNat := by
  simp [queueBytes]

/-- R215: the count after `Compact(k)`. -/
theorem compact_count (s : State) (k : Nat) :
    (compact k s).txqCount.toNat = s.txqCount.toNat - k := by
  have := s.txqCount.isLt
  show (BitVec.ofNat 8 (s.txqCount.toNat - k)).toNat = _
  rw [BitVec.toNat_ofNat]; omega

/-- R215: `Compact(k)` drops the first k bytes of the queue and keeps the order of the rest. -/
theorem compact_bytes (s : State) (k : Nat) (h : k ≤ s.txqCount.toNat) :
    queueBytes (compact k s) = (queueBytes s).drop k := by
  unfold queueBytes
  rw [compact_count]
  show memRead _ (memForget (memWrite s.txq 0
    (memRead Config.unspecTxq s.txq k (s.txqCount.toNat - k))) _) 0 _ = _
  rw [memRead_memForget (h := by omega)]
  have e := memRead_memWrite s.txq Config.unspecTxq 0
    (memRead Config.unspecTxq s.txq k (s.txqCount.toNat - k))
  rw [memRead_length] at e
  rw [e]
  conv_rhs => rw [show s.txqCount.toNat = k + (s.txqCount.toNat - k) by omega, memRead_add]
  rw [List.drop_append_of_le_length (by simp)]
  simp

end Sys2Proof.Machine
end

