-- ==== Sys2Proof/Laws/PerInstr.lean ====
section
/-! SUPPORT. Statements for all instructions, one lemma per constructor. -/

namespace Sys2Proof.Laws.EncodeLength

/-- R90, R105 to R108, log 5: a well-formed instruction is encoded in one byte, or in one byte and an
operand byte, or in one byte, a count byte and the counted data, at most 257 bytes in all. -/
def Statement (i : Instr) : Prop :=
  i.wf = true → 1 ≤ (encode i).length ∧ (encode i).length ≤ 257 ∧
    (2 < (encode i).length → ∃ b ds, encode i = b :: counted ds ∧ ds.length ≤ 255)

theorem counted_form (b : Byte) (ds : List Byte) (h : fitsCount ds = true) :
    1 ≤ (b :: counted ds).length ∧ (b :: counted ds).length ≤ 257 ∧
      (2 < (b :: counted ds).length → ∃ b' ds', b :: counted ds = b' :: counted ds' ∧ ds'.length ≤ 255) := by
  have h : ds.length ≤ 255 := by simpa [fitsCount] using h
  exact ⟨by simp, by simp [counted]; omega, fun _ => ⟨b, ds, rfl, h⟩⟩

theorem one_byte (b : Byte) (P : Prop) : 1 ≤ [b].length ∧ [b].length ≤ 257 ∧ (2 < [b].length → P) := by
  simp

theorem two_bytes (b c : Byte) (P : Prop) :
    1 ≤ [b, c].length ∧ [b, c].length ≤ 257 ∧ (2 < [b, c].length → P) := by
  simp

theorem init : Statement .init := fun _ => one_byte _ _
theorem enterListen : Statement .enterListen := fun _ => one_byte _ _
theorem exitListen : Statement .exitListen := fun _ => one_byte _ _
theorem beginTx (ds : List Byte) : Statement (.beginTx ds) := fun h => counted_form _ _ h
theorem append (ds : List Byte) : Statement (.append ds) := fun h => counted_form _ _ h
theorem sendNextFull : Statement .sendNextFull := fun _ => one_byte _ _
theorem sendNextForce : Statement .sendNextForce := fun _ => one_byte _ _
theorem waitIdlePoll : Statement .waitIdlePoll := fun _ => one_byte _ _
theorem readStatus : Statement .readStatus := fun _ => one_byte _ _
theorem illegalOpcode (op : Byte) : Statement (.illegalOpcode op) := fun _ => one_byte _ _
theorem sres : Statement .sres := fun _ => one_byte _ _
theorem sfstxon : Statement .sfstxon := fun _ => one_byte _ _
theorem sxoff : Statement .sxoff := fun _ => one_byte _ _
theorem scal : Statement .scal := fun _ => one_byte _ _
theorem srx : Statement .srx := fun _ => one_byte _ _
theorem stx : Statement .stx := fun _ => one_byte _ _
theorem sidle : Statement .sidle := fun _ => one_byte _ _
theorem strobe37 : Statement .strobe37 := fun _ => one_byte _ _
theorem swor : Statement .swor := fun _ => one_byte _ _
theorem spwd : Statement .spwd := fun _ => one_byte _ _
theorem sfrx : Statement .sfrx := fun _ => one_byte _ _
theorem sftx : Statement .sftx := fun _ => one_byte _ _
theorem sworrst : Statement .sworrst := fun _ => one_byte _ _
theorem snop : Statement .snop := fun _ => one_byte _ _
theorem snopRx : Statement .snopRx := fun _ => one_byte _ _
theorem regWriteSingle (a : Addr) (v : Byte) : Statement (.regWriteSingle a v) := fun _ => two_bytes _ _ _
theorem regReadConfig (a : Addr) : Statement (.regReadConfig a) := fun _ => one_byte _ _
theorem regReadStatus (a : Addr) : Statement (.regReadStatus a) := fun _ => one_byte _ _
theorem burstWrite (a : Addr) (ds : List Byte) : Statement (.burstWrite a ds) := fun h => counted_form _ _ (by simp only [Instr.wf, Bool.and_eq_true] at h; exact h.2)
theorem burstRead (a : Addr) (n : Byte) : Statement (.burstRead a n) := fun _ => two_bytes _ _ _
theorem patableWriteSingle (v : Byte) : Statement (.patableWriteSingle v) := fun _ => two_bytes _ _ _
theorem patableWriteBurst (ds : List Byte) : Statement (.patableWriteBurst ds) := fun h => counted_form _ _ h
theorem txfifoWriteBurst (ds : List Byte) : Statement (.txfifoWriteBurst ds) := fun h => counted_form _ _ h
theorem rxfifoReadBurst (n : Byte) : Statement (.rxfifoReadBurst n) := fun _ => two_bytes _ _ _

end Sys2Proof.Laws.EncodeLength
end

