-- ==== Sys2Proof/Machine/Assembler.lean ====
section
/-! DEFINITION. The assembler text of rule R95: one command a line, a string or a byte-list operand for
the HD commands, comment lines, and the pseudo-command SEND_NEXT FULL or FORCE (log 22). -/

namespace Sys2Proof.Machine

/-- Blanks between the parts of a line. -/
def isBlank (c : Char) : Bool := c == ' ' || c == '\t'

/-- The double quote of a string operand. -/
def quoteChar : Char := Char.ofNat 0x22

/-- A hexadecimal digit. -/
def hexDigit (c : Char) : Option Nat :=
  let k := c.toNat
  if 48 ≤ k ∧ k ≤ 57 then some (k - 48)
  else if 65 ≤ k ∧ k ≤ 70 then some (k - 55)
  else if 97 ≤ k ∧ k ≤ 102 then some (k - 87)
  else none

/-- Two hexadecimal digits. -/
def hexByte (h l : Char) : Option Byte :=
  match hexDigit h, hexDigit l with
  | some h, some l => some (BitVec.ofNat 8 (16 * h + l))
  | _, _ => none

/-- A byte before what follows. -/
def pushByte (b : Option Byte) (r : Option (List Byte × List Char)) : Option (List Byte × List Char) :=
  match b, r with
  | some b, some (bs, cs) => some (b :: bs, cs)
  | _, _ => none

/-- A character of a string stands for its code, if it is an ASCII one. -/
def asciiByte (c : Char) : Option Byte := if c.toNat < 128 then some (BitVec.ofNat 8 c.toNat) else none

/-- R95: the escape after a backslash of one character: `n`, backslash, double quote. -/
def escapeByte (c : Char) : Option Byte :=
  if c = 'n' then some 0x0A else if c = '\\' then some 0x5C else if c = quoteChar then some 0x22 else none

/-- R95: the characters of a string operand up to its closing quote. -/
def stringBody : List Char → Option (List Byte × List Char)
  | [] => none
  | '\\' :: 'x' :: h :: l :: cs => pushByte (hexByte h l) (stringBody cs)
  | '\\' :: c :: cs => pushByte (escapeByte c) (stringBody cs)
  | c :: cs => if c = quoteChar then some ([], cs) else pushByte (asciiByte c) (stringBody cs)

/-- R95: a byte literal `0xHH`. -/
def byteLiteral : List Char → Option (Byte × List Char)
  | '0' :: 'x' :: h :: l :: cs => (hexByte h l).map fun b => (b, cs)
  | _ => none

/-- R95: the byte literals of a list operand up to its closing bracket, at most `fuel` of them. -/
def listBody : Nat → List Char → Option (List Byte × List Char)
  | 0, _ => none
  | fuel + 1, cs =>
    match byteLiteral (cs.dropWhile isBlank) with
    | none => none
    | some (b, cs) =>
      match cs.dropWhile isBlank with
      | ']' :: cs => some ([b], cs)
      | ',' :: cs => pushByte (some b) (listBody fuel cs)
      | _ => none

/-- R95: an operand, a string or a byte list; the empty list is `[]`. -/
def operandText (cs : List Char) : Option (List Byte × List Char) :=
  match cs.dropWhile isBlank with
  | '[' :: cs =>
    match cs.dropWhile isBlank with
    | ']' :: cs => some ([], cs)
    | cs => listBody cs.length cs
  | c :: cs => if c = quoteChar then stringBody cs else none
  | [] => none

/-- R92, R95: the mnemonics of the commands without an operand. -/
def h0Names : List (List Char × Instr) :=
  [("INIT".toList, .init),
   ("ENTER_LISTEN".toList, .enterListen),
   ("EXIT_LISTEN".toList, .exitListen),
   ("SEND_NEXT.FULL".toList, .sendNextFull),
   ("SEND_NEXT.FORCE".toList, .sendNextForce),
   ("WAIT_IDLE_POLL".toList, .waitIdlePoll),
   ("READ_STATUS".toList, .readStatus)]

/-- R95: the pseudo-command's modes. -/
def sendModes : List (List Char × Instr) :=
  [("FULL".toList, .sendNextFull), ("FORCE".toList, .sendNextForce)]

/-- The instruction, if only blanks follow it and it has an encoding. -/
def endOfLine (i : Instr) (cs : List Char) : Option (List Instr) :=
  if cs.all isBlank && i.wf then some [i] else none

/-- R95: an HD command's operand. -/
def operandLine (f : List Byte → Instr) (cs : List Char) : Option (List Instr) :=
  (operandText cs).bind fun p => endOfLine (f p.1) p.2

/-- R95: one line: no command for a comment or a blank line, `none` for what is no line of the syntax.
Blanks before the `;` or the mnemonic are skipped: DESIGN CHOICE, log 22. -/
def assembleLine (line : List Char) : Option (List Instr) :=
  match line.dropWhile isBlank with
  | [] => some []
  | ';' :: _ => some []
  | cs =>
    let name := cs.takeWhile (fun c => !isBlank c)
    let left := cs.dropWhile (fun c => !isBlank c)
    match h0Names.lookup name with
    | some i => endOfLine i left
    | none =>
      if name = "BEGIN_TX".toList then operandLine .beginTx left
      else if name = "APPEND".toList then operandLine .append left
      else if name = "SEND_NEXT".toList then
        let left := left.dropWhile isBlank
        let mode := left.takeWhile (fun c => !isBlank c)
        (sendModes.lookup mode).bind fun i => endOfLine i (left.dropWhile (fun c => !isBlank c))
      else none

/-- R95: the host command bytes of a line. -/
def assembleBytes (line : List Char) : Option (List Byte) :=
  (assembleLine line).map fun is => (is.map encode).flatten

end Sys2Proof.Machine
end

