-- ==== Sys2Proof/Tests/Slice0.lean ====
section
/-! SUPPORT. The model's own tests: ill-formed terms, words written out from the spec's encodings, the
vectors of 95_test_vectors section 2, the assembler, and a witness of the hypotheses of each
statement of Sys2Proof/Certificates/Slice0/Obligations.lean. -/

namespace Sys2Proof.Tests

open Sys2Proof.Machine

/-! ### Ill-formed terms (WellFormed) -/

/-- So many zero bytes. -/
def zeros (n : Nat) : List Byte := List.replicate n 0

theorem zeros_unfit : fitsCount (zeros 256) = false := by
  rw [fitsCount, zeros, List.length_replicate]; rfl
theorem zeros_fit : fitsCount (zeros 255) = true := by
  rw [fitsCount, zeros, List.length_replicate]; rfl

/-- R90: 256 bytes fit no count byte. -/
theorem test_wf_refuses_long_data :
    Instr.wf (.beginTx (zeros 256)) = false ∧ Instr.wf (.append (zeros 256)) = false ∧
    Instr.wf (.burstWrite 0x00 (zeros 256)) = false ∧ Instr.wf (.patableWriteBurst (zeros 256)) = false ∧
    Instr.wf (.txfifoWriteBurst (zeros 256)) = false := by
  refine ⟨zeros_unfit, zeros_unfit, ?_, zeros_unfit, zeros_unfit⟩
  rw [Instr.wf, zeros_unfit, Bool.and_false]

/-- R93, R104 to R108: opcodes and addresses that belong to another row. -/
theorem test_wf_refuses_foreign_operands :
    Instr.wf (.illegalOpcode 0x01) = false ∧ Instr.wf (.illegalOpcode 0x09) = false ∧
    Instr.wf (.regWriteSingle 0x30 0x00) = false ∧ Instr.wf (.regWriteSingle 0x3E 0x00) = false ∧
    Instr.wf (.regReadConfig 0x2F) = false ∧ Instr.wf (.regReadStatus 0x3E) = false ∧
    Instr.wf (.burstWrite 0x3E []) = false ∧ Instr.wf (.burstWrite 0x3F []) = false ∧
    Instr.wf (.burstRead 0x3B 1) = false ∧ Instr.wf (.burstRead 0x3F 1) = false := by decide

/-- R15: one violation of each condition of a configuration. -/
theorem test_config_refused :
    Config.cfgA.wf = true ∧
    ({ Config.cfgA with txqCap := 0 } : Config.Params).wf = false ∧
    ({ Config.cfgA with txqCap := 17 } : Config.Params).wf = false ∧
    ({ Config.cfgA with maxPayload := 256, txFifoCap := 300 } : Config.Params).wf = false ∧
    ({ Config.cfgA with txFifoCap := 16 } : Config.Params).wf = false ∧
    ({ Config.cfgA with rxCap := 3 } : Config.Params).wf = false ∧
    ({ Config.cfgA with rxCap := 256 } : Config.Params).wf = false ∧
    ({ Config.cfgA with paTable := [] } : Config.Params).wf = false ∧
    ({ Config.cfgA with paTableCap := 0 } : Config.Params).wf = false ∧
    ({ Config.cfgA with waitCap := 0 } : Config.Params).wf = false ∧
    ({ Config.cfgA with waitCap := 256 } : Config.Params).wf = false ∧
    ({ Config.cfgA with configTable := [(0x2F, 0x00)] } : Config.Params).wf = false := by decide

/-! ### Words written out from the spec's encodings -/

/-- R92: every host command's bytes; 95 E1 to E4, E10. -/
theorem test_decode_host_commands :
    decodeHost [0x01] = .instr .init [] ∧ decodeHost [0x02] = .instr .enterListen [] ∧
    decodeHost [0x03] = .instr .exitListen [] ∧
    decodeHost [0x04, 0x02, 0x48, 0x49] = .instr (.beginTx [0x48, 0x49]) [] ∧
    decodeHost [0x05, 0x03, 0x41, 0x42, 0x0A] = .instr (.append [0x41, 0x42, 0x0A]) [] ∧
    decodeHost [0x05, 0x00] = .instr (.append []) [] ∧
    decodeHost [0x06] = .instr .sendNextFull [] ∧ decodeHost [0x07] = .instr .sendNextForce [] ∧
    decodeHost [0x08] = .instr .waitIdlePoll [] ∧ decodeHost [0x09] = .instr .readStatus [] ∧
    decodeHost [0x04, 0x03, 0x41, 0x42] = .reject .cutShort ∧ decodeHost [0x04] = .reject .cutShort := by
  decide

/-- R93; 95 E7 to E9. -/
theorem test_decode_illegal_opcodes :
    decodeHost [0x00, 0x01] = .instr (.illegalOpcode 0x00) [0x01] ∧
    decodeHost [0x0A] = .instr (.illegalOpcode 0x0A) [] ∧
    decodeHost [0xFF] = .instr (.illegalOpcode 0xFF) [] := by decide

/-- R101: every strobe code. -/
theorem test_decode_strobes :
    decodeBus [0x30] = .instr .sres [] ∧ decodeBus [0x31] = .instr .sfstxon [] ∧
    decodeBus [0x32] = .instr .sxoff [] ∧ decodeBus [0x33] = .instr .scal [] ∧
    decodeBus [0x34] = .instr .srx [] ∧ decodeBus [0x35] = .instr .stx [] ∧
    decodeBus [0x36] = .instr .sidle [] ∧ decodeBus [0x37] = .instr .strobe37 [] ∧
    decodeBus [0x38] = .instr .swor [] ∧ decodeBus [0x39] = .instr .spwd [] ∧
    decodeBus [0x3A] = .instr .sfrx [] ∧ decodeBus [0x3B] = .instr .sftx [] ∧
    decodeBus [0x3C] = .instr .sworrst [] ∧ decodeBus [0x3D] = .instr .snop [] ∧
    decodeBus [0xBD] = .instr .snopRx [] := by decide

/-- R105 to R108: single, burst, power-table and FIFO instruction bytes; the bytes the RLC never
issues are refused (log 20). -/
theorem test_decode_register_access :
    decodeBus [0x02, 0x06] = .instr (.regWriteSingle 0x02 0x06) [] ∧
    decodeBus [0x80] = .instr (.regReadConfig 0x00) [] ∧
    decodeBus [0xBE] = .instr (.regReadConfig 0x3E) [] ∧
    decodeBus [0xFB] = .instr (.regReadStatus 0x3B) [] ∧
    decodeBus [0x42, 0x02, 0x06, 0x07] = .instr (.burstWrite 0x02 [0x06, 0x07]) [] ∧
    decodeBus [0xC2, 0x05] = .instr (.burstRead 0x02 0x05) [] ∧
    decodeBus [0x3E, 0xC0] = .instr (.patableWriteSingle 0xC0) [] ∧
    decodeBus [0x7E, 0x02, 0x50, 0xC0] = .instr (.patableWriteBurst [0x50, 0xC0]) [] ∧
    decodeBus [0x7F, 0x01, 0x41] = .instr (.txfifoWriteBurst [0x41]) [] ∧
    decodeBus [0xFF, 0x04] = .instr (.rxfifoReadBurst 0x04) [] ∧
    decodeBus [0xBF] = .reject .notBusInstruction ∧ decodeBus [0xAF] = .reject .notBusInstruction := by
  decide

/-- The table's numbering: one row of each port, and a row with a count of 3. -/
theorem test_decode_table_words :
    decodeTableWord 8 0x01 = some .init ∧ decodeTableWord 8 0x34 = some .srx ∧
    decodeTableWord 8 0x00 = some (.regWriteSingle 0x00 0x00) ∧
    decodeTableWord 8 0xAF = some (.illegalOpcode 0xAF) ∧
    decodeTableWord 16 0x0304 = some (.beginTx [0x00, 0x00, 0x00]) ∧
    decodeTableWord 8 0x04 = some (.beginTx []) := by decide

/-! ### The states and observations of the vectors (95 section 0) -/

/-- Answers listed for the draws of one step: statuses, bytes, asleep samples, polls, free room. -/
def answering (s : State) (statuses data : List Byte) (asleep : List Bool) (polls : List (Option Nat))
    (room : List Nat) : State :=
  { s with
    statusAnswers := { listed := statuses, taken := 0 }
    dataAnswers := { listed := data, taken := 0 }
    asleepAnswers := { listed := asleep, taken := 0 }
    pollAnswers := { listed := polls, taken := 0 }
    roomAnswers := { listed := room, taken := 0 } }

/-- The default draws. -/
def defaults (s : State) : State :=
  answering s (List.replicate 4 0x0F) (List.replicate 4 0x2E) (List.replicate 4 false)
    (List.replicate 60 (some 0)) [64]

/-- Idle after INIT. -/
def idle : State := { State.reset with initDone := true }
/-- Listening after ENTER_LISTEN. -/
def listening : State := { idle with linkState := .listening, irqEn := true }
/-- Transmitting after BEGIN_TX. -/
def transmitting : State := { idle with linkState := .transmitting, irqEn := true }
/-- The Fault state of the word 0x00005387. -/
def faulted : State :=
  { idle with linkState := .fault, fault := true, faultCause := some .crcFailure, lastRx := some .crcFailure }
/-- A queue with these bytes. -/
def queued (bs : List Byte) (s : State) : State :=
  { s with txq := memWrite [] 0 bs, txqCount := BitVec.ofNat 8 bs.length }
/-- CFG-A with `BUS_WAIT_CAP = 2`, the first wait's poll count given. -/
def capped (k : Nat) (s : State) : State :=
  { defaults s with
    cfg := { Config.cfgA with busWaitCap := some 2 }
    pollAnswers := { listed := some k :: List.replicate 60 (some 0), taken := 0 } }
/-- A ready flag that never comes, under INF. -/
def neverSeen (s : State) : State :=
  { defaults s with pollAnswers := { listed := [none], taken := 0 } }
/-- Line edge latched in Listening, the parser's draws given. -/
def receiving (status : Byte) (data : List Byte) (room : Nat) : State :=
  answering { listening with irqPend := true } [status] data [] (List.replicate 60 (some 0)) [room]

/-- The four transactions of an operational strobe under the default draws. -/
def ops (c : Byte) : List Transaction :=
  [.read 0x80 [0x2E], .write 0x00 [0x29], .strobe c 0x0F, .write 0x00 [0x2E]]

/-- The next state of an outcome. -/
def nextOf : Host.Outcome State Fault Refusal → Option State
  | .next t => some t
  | .fault _ => none
  | .refused _ => none

/-- The observation of a step: the last result's bytes, the trace and the status word. -/
def seen (o : Host.Outcome State Fault Refusal) : Option (Option (List Byte) × List Transaction × Word32) :=
  (nextOf o).map fun t => (t.hostLog.getLast?.map fun e => e.result.bytes, t.busTrace, statusWord t)

/-- The observation of a dispatcher call: its return and the trace. -/
def called (o : Host.Outcome State Fault Refusal) : Option (CallReturn × List Transaction) :=
  (nextOf o).map fun t => (t.callReturn, t.busTrace)

/-! ### Host commands (95 sections 2.1, 2.3, 2.5) -/

/-- L4. -/
theorem test_init : seen (exec .init (defaults State.reset)) = some (some [0, 0, 0, 0, 0],
    [.strobe 0x30 0x0F, .strobe 0x3D 0x0F, .write 0x02 [0x06], .write 0x3E [0xC0], .strobe 0x3D 0x0F],
    0x00000080) := by decide
/-- R76, R126: INIT reaches `AUX_CFG_ADDR` where CONFIG_TABLE lists it. -/
theorem test_init_reaches_aux_cfg : seen (exec .init { defaults State.reset with
      cfg := { Config.cfgA with configTable := [(0x00, 0x2E), (0x02, 0x06)] } }) = some (some [0, 0, 0, 0, 0],
    [.strobe 0x30 0x0F, .strobe 0x3D 0x0F, .write 0x00 [0x2E], .write 0x02 [0x06], .write 0x3E [0xC0],
      .strobe 0x3D 0x0F], 0x00000080) := by decide
/-- L20. -/
theorem test_init_clears_fault : seen (exec .init (defaults faulted)) = some (some [0, 0, 0, 0, 0],
    [.strobe 0x30 0x0F, .strobe 0x3D 0x0F, .write 0x02 [0x06], .write 0x3E [0xC0], .strobe 0x3D 0x0F],
    0x00000080) := by decide
/-- I2: the stale edge is discarded. -/
theorem test_enterListen_clears_edge : seen (exec .enterListen (defaults { idle with irqPend := true })) =
    some (some [0, 0, 0, 0, 0], ops 0x34, 0x000000C9) := by decide
/-- L22. -/
theorem test_enterListen_timeout : seen (exec .enterListen (capped 3 idle)) =
    some (some [4, 0, 0, 0, 0], [], 0x00000587) := by decide
/-- L8. -/
theorem test_exitListen : seen (exec .exitListen (defaults listening)) =
    some (some [0, 0, 0, 0, 0], ops 0x36 ++ ops 0x3A, 0x00000080) := by decide
/-- L7. -/
theorem test_exitListen_illegal : seen (exec .exitListen (defaults idle)) =
    some (some [1, 0, 0, 0, 0], [], 0x00000080) := by decide
/-- L10. -/
theorem test_beginTx_from_listening : seen (exec (.beginTx [0x48, 0x49]) (defaults listening)) =
    some (some [0, 0, 0, 0, 0], ops 0x36 ++ ops 0x3A ++ [.write 0x7F [0x02, 0x48, 0x49]] ++ ops 0x35,
      0x000000AA) := by decide
/-- L17. -/
theorem test_beginTx_from_fault : seen (exec (.beginTx [0x48, 0x49]) (defaults faulted)) =
    some (some [0, 0, 0, 0, 0], [.write 0x7F [0x02, 0x48, 0x49]] ++ ops 0x35, 0x000053AE) := by decide
/-- Q2: an exact fit. -/
theorem test_append_exact_fit :
    ((nextOf (exec (.append [0x46, 0x47, 0x48]) (queued [0x41, 0x42, 0x43, 0x44, 0x45] idle))).map queueBytes) =
      some [0x41, 0x42, 0x43, 0x44, 0x45, 0x46, 0x47, 0x48] := by decide
/-- Q3: one byte too many, nothing taken. -/
theorem test_append_full :
    ((nextOf (exec (.append [0x47, 0x48, 0x49]) (queued [0x41, 0x42, 0x43, 0x44, 0x45, 0x46] idle))).map
      fun t => (queueBytes t, t.hostLog.map fun e => e.result.bytes)) =
      some ([0x41, 0x42, 0x43, 0x44, 0x45, 0x46], [[2, 0, 0, 0, 0]]) := by decide
/-- Q6: the first message is sent, the rest moves to the front. -/
theorem test_sendNextFull :
    ((nextOf (exec .sendNextFull (defaults (queued [0x41, 0x42, 0x0A, 0x43, 0x44, 0x0A] idle)))).map
      fun t => (queueBytes t, t.txq, t.busTrace, t.hostLog.map fun e => e.result.bytes)) =
      some ([0x43, 0x44, 0x0A], [(0, 0x43), (1, 0x44), (2, 0x0A)],
        [.write 0x7F [0x03, 0x41, 0x42, 0x0A]] ++ ops 0x35, [[0, 3, 0, 0, 0]]) := by decide
/-- Q8: no terminator. -/
theorem test_sendNextFull_none : nextOf (exec .sendNextFull (queued [0x41, 0x42] idle)) =
    some (reply .sendNextFull .ok 0 (queued [0x41, 0x42] idle)) := by decide
/-- Q10: terminators are data. -/
theorem test_sendNextForce : seen (exec .sendNextForce (defaults (queued [0x41, 0x0A, 0x42, 0x0A] idle))) =
    some (some [0, 4, 0, 0, 0], [.write 0x7F [0x04, 0x41, 0x0A, 0x42, 0x0A]] ++ ops 0x35, 0x000000AA) := by
  decide
/-- Q15's fault, for FORCE: the frame has left the queue. -/
theorem test_sendNextForce_timeout : seen (exec .sendNextForce (capped 3 (queued [0x41] idle))) =
    some (some [4, 0, 0, 0, 0], [], 0x00000587) := by decide
/-- L24. -/
theorem test_waitIdlePoll_notIdle :
    seen (exec .waitIdlePoll (answering transmitting [0x2F] [] [] [some 0] [])) =
      some (some [6, 0x2F, 0, 0, 0], [.strobe 0x3D 0x2F], 0x010000AA) := by decide
/-- L26. -/
theorem test_waitIdlePoll_timeout :
    seen (exec .waitIdlePoll (answering { transmitting with waitCnt := 2 } [0x2F] [] [] [some 0] [])) =
      some (some [5, 0, 0, 0, 0], [.strobe 0x3D 0x2F], 0x00000687) := by decide
/-- E6. -/
theorem test_readStatus : seen (exec .readStatus (queued [0x41, 0x42, 0x0A] transmitting)) =
    some (some [0, 0xAA, 0, 3, 0], [], 0x000300AA) := by decide
/-- E7. -/
theorem test_illegalOpcode : seen (exec (.illegalOpcode 0x00) idle) =
    some (some [8, 0, 0, 0, 0], [], 0x00000080) := by decide

/-! ### Dispatcher calls (95 section 2.2) -/

/-- B2. -/
theorem test_sres : called (exec .sres (defaults idle)) =
    some (.status 0x0F, [.strobe 0x30 0x0F]) := by decide
/-- B1. -/
theorem test_snop : called (exec .snop (defaults idle)) =
    some (.status 0x0F, [.strobe 0x3D 0x0F]) := by decide
/-- B19 and B18. -/
theorem test_snop_cap : called (exec .snop (capped 2 idle)) = some (.status 0x0F, [.strobe 0x3D 0x0F]) ∧
    called (exec .snop (capped 3 idle)) = some (.faulted .busTimeout, []) := by decide
/-- B8. -/
theorem test_snopRx : called (exec .snopRx (defaults idle)) =
    some (.status 0x0F, [.strobe 0xBD 0x0F]) := by decide
/-- B3. -/
theorem test_srx : called (exec .srx (defaults idle)) = some (.status 0x0F, ops 0x34) := by decide
/-- B4. -/
theorem test_srx_asleep :
    called (exec .srx (answering idle [0x0F] [0x2E] [true] (List.replicate 7 (some 0)) [])) =
      some (.status 0x0F, [.read 0x80 [0x2E], .write 0x00 [0x29], .strobe 0x34 0x0F, .settle,
        .write 0x00 [0x2E]]) := by decide
/-- B5: the sleep family does not settle. -/
theorem test_sleep_family_asleep : ∀ p ∈ [(Instr.spwd, (0x39 : Byte)), (.sxoff, 0x32), (.swor, 0x38)],
    called (exec p.1 (answering idle [0x0F] [0x2E] [true] (List.replicate 6 (some 0)) [])) =
      some (.status 0x0F, ops p.2) := by decide
/-- R131 to R142 under the default draws. -/
theorem test_operational_strobes : ∀ p ∈ [(Instr.sfstxon, (0x31 : Byte)), (.scal, 0x33), (.stx, 0x35),
    (.sidle, 0x36), (.strobe37, 0x37), (.sfrx, 0x3A), (.sftx, 0x3B), (.sworrst, 0x3C)],
    called (exec p.1 (defaults idle)) = some (.status 0x0F, ops p.2) := by decide
/-- B12 and B11. -/
theorem test_regWriteSingle : called (exec (.regWriteSingle 0x02 0x06) (defaults idle)) =
      some (.done, [.write 0x02 [0x06]]) ∧
    called (exec (.regWriteSingle 0x35 0x01) (defaults idle)) = some (.err, []) := by decide
/-- B10. -/
theorem test_regReadConfig : called (exec (.regReadConfig 0x00) (defaults idle)) =
    some (.value 0x2E, [.read 0x80 [0x2E]]) := by decide
/-- B9. -/
theorem test_regReadStatus :
    called (exec (.regReadStatus 0x3B) (answering idle [] [0x07] [] (List.replicate 2 (some 0)) [])) =
      some (.value 0x07, [.read 0xFB [0x07]]) := by decide
/-- R128 at a register address. -/
theorem test_burstWrite : called (exec (.burstWrite 0x02 [0x06, 0x07]) (defaults idle)) =
    some (.done, [.write 0x42 [0x06, 0x07]]) := by decide
/-- R127 at a register address. -/
theorem test_burstRead : called (exec (.burstRead 0x02 2) (defaults idle)) =
    some (.bytes [0x2E, 0x2E], [.read 0xC2 [0x2E, 0x2E]]) := by decide
/-- B16. -/
theorem test_patableWriteSingle : called (exec (.patableWriteSingle 0xC0) (defaults idle)) =
    some (.done, [.write 0x3E [0xC0], .strobe 0x3D 0x0F]) := by decide
/-- B17. -/
theorem test_patableWriteBurst : called (exec (.patableWriteBurst [0x50, 0xC0]) (defaults idle)) =
    some (.done, [.write 0x7E [0x50, 0xC0], .strobe 0x3D 0x0F]) := by decide
/-- R128's example, and B15. -/
theorem test_txfifoWriteBurst :
    called (exec (.txfifoWriteBurst [0x03, 0x41, 0x42, 0x0A]) (defaults idle)) =
      some (.done, [.write 0x7F [0x03, 0x41, 0x42, 0x0A]]) ∧
    called (exec (.txfifoWriteBurst []) (defaults idle)) = some (.done, []) := by decide
/-- B14 and B13. -/
theorem test_rxfifoReadBurst :
    called (exec (.rxfifoReadBurst 4) (answering idle [] [0x03, 0x7A, 0x40, 0x85] []
      (List.replicate 5 (some 0)) [])) =
      some (.bytes [0x03, 0x7A, 0x40, 0x85], [.read 0xFF [0x03, 0x7A, 0x40, 0x85]]) ∧
    called (exec (.rxfifoReadBurst 0) (defaults idle)) = some (.bytes [], []) := by decide
/-- B6, B7: ERR and nothing else. -/
theorem test_illegal_strobe : busStrobe 0x3E idle = .ok none idle ∧ busStrobe 0x2F idle = .ok none idle := by
  decide
/-- B20: the hang is kept. -/
theorem test_hang : (nextOf (exec .snop (neverSeen idle))).map (fun t => (t.hung, t.busTrace)) =
    some (true, []) := by decide

/-- R14: a radio with other encodings: another no-op code, status field and Idle code. -/
theorem test_other_radio :
    seen (exec .waitIdlePoll { defaults idle with
      cfg := { Config.cfgA with radio := { Radio.spec with
        strobes := { StrobeCodes.spec with snop := 0x11 }, stateLow := 0, stateIdle := 7 } } }) =
      some (some [0, 0x0F, 0, 0, 0], [.strobe 0x11 0x0F], 0x00000080) := by decide

/-! ### The handler (95 sections 2.3, 2.4, 2.6) -/

/-- The observation of a handler step: the sink log, the trace and the status word. -/
def drained (t : State) : List Delivery × List Transaction × Word32 := (t.sinkLog, t.busTrace, statusWord t)

/-- X1 (S7). -/
theorem test_rx_delivers :
    drained (handlerStep (receiving 0x0F [0x07, 0x05, 0x48, 0x49, 0x21, 0x21, 0xA3, 0x91] 64)) =
      ([{ payload := [0x48, 0x49, 0x21, 0x21], rssi := 0xA3, lqi := 0x11 }],
        [.strobe 0x3D 0x0F, .read 0xFB [0x07], .read 0xFF [0x05, 0x48, 0x49, 0x21, 0x21, 0xA3, 0x91]],
        0x00001080) := by decide
/-- X2. -/
theorem test_rx_state_mismatch :
    drained (handlerStep (receiving 0x1F [] 64)) = ([], [.strobe 0x3D 0x1F], 0x00003187) := by decide
/-- X3. -/
theorem test_rx_short : drained (handlerStep (receiving 0x0F [0x03] 64)) =
    ([], [.strobe 0x3D 0x0F, .read 0xFB [0x03]], 0x00004287) := by decide
/-- X6. -/
theorem test_rx_overflow : drained (handlerStep (receiving 0x0F [0x11] 64)) =
    ([], [.strobe 0x3D 0x0F, .read 0xFB [0x11]], 0x00006487) := by decide
/-- X9 (S4). -/
theorem test_rx_crc : drained (handlerStep (receiving 0x0F [0x07, 0x05, 0x48, 0x49, 0x21, 0x21, 0xA3, 0x11] 64)) =
      ([], [.strobe 0x3D 0x0F, .read 0xFB [0x07], .read 0xFF [0x05, 0x48, 0x49, 0x21, 0x21, 0xA3, 0x11]],
        0x00005387) := by decide
/-- X10, X11: no room for the payload, and just room. -/
theorem test_rx_sink :
    (drained (handlerStep (receiving 0x0F [0x07, 0x05, 0x48, 0x49, 0x21, 0x21, 0xA3, 0x91] 3))).2.2 = 0x00002080 ∧
    (drained (handlerStep (receiving 0x0F [0x07, 0x05, 0x48, 0x49, 0x21, 0x21, 0xA3, 0x91] 4))).2.2 =
      0x00001080 := by decide
/-- X12: a timeout at the RXBYTES read's second wait. -/
theorem test_rx_timeout :
    drained (handlerStep { receiving 0x0F [0x07] 64 with
      cfg := { Config.cfgA with busWaitCap := some 2 }
      pollAnswers := { listed := [some 0, some 0, some 5], taken := 0 } }) =
      ([], [.strobe 0x3D 0x0F], 0x00007587) := by decide
/-- L15, through step. -/
theorem test_tx_completion :
    (nextOf (step { transmitting with inputs := [.handler], irqPend := true })).map statusWord =
      some 0x00000080 := by decide
/-- I1: an edge while disabled is latched and nothing runs. -/
theorem test_edge_while_disabled :
    (nextOf (step { idle with inputs := [.lineFall] })).map statusWord = some 0x00000090 ∧
    (nextOf (step { idle with inputs := [.handler], irqPend := true })).map statusWord =
      some 0x00000090 := by decide

/-! ### The step and the table -/

/-- The first instruction after reset is the table's word (log 3). -/
theorem test_step_runs_table_word :
    step (State.reset.withFetchWord 8 0x09) = exec .readStatus State.reset ∧
    step (State.reset.withFetchWord 8 0x34) = exec .srx { State.reset with openBus := true } ∧
    step (State.reset.withFetchWord 8 0x00) =
      exec (.regWriteSingle 0x00 0x00) { State.reset with openBus := true } := by
  refine ⟨rfl, rfl, rfl⟩

/-- R147: the RLC's dispatcher takes no call of its own (log 4). -/
theorem test_raw_bus_access_refused :
    step { idle with inputs := [.call [0x3D]] } = .refused .rawBusAccess := rfl

/-! ### The assembler (R95) -/

/-- R95's examples. -/
theorem test_assembler_examples :
    assembleBytes "INIT".toList = some [0x01] ∧
    assembleBytes ("APPEND ".toList ++ [quoteChar] ++ "AB\\n".toList ++ [quoteChar]) =
      some [0x05, 0x03, 0x41, 0x42, 0x0A] ∧
    assembleBytes "APPEND [0x41, 0x42]".toList = some [0x05, 0x02, 0x41, 0x42] ∧
    assembleBytes "SEND_NEXT FULL".toList = some [0x06] ∧
    assembleBytes "SEND_NEXT FORCE".toList = some [0x07] ∧
    assembleBytes "; a comment".toList = some [] ∧ assembleBytes "  INIT".toList = some [0x01] ∧ assembleBytes "JUMP".toList = none := by decide

/-! ### Witnesses: the hypotheses of each statement are met -/

theorem witness_DecodeOfEncodeIsTheInstruction :
    (Instr.beginTx (zeros 255)).wf = true ∧ (Instr.illegalOpcode 0x0A).wf = true ∧
    (Instr.regWriteSingle 0x3F 0x01).wf = true ∧ (Instr.regReadConfig 0x3E).wf = true ∧
    (Instr.regReadStatus 0x3D).wf = true ∧ (Instr.burstRead 0x3E 0xFF).wf = true := by
  refine ⟨zeros_fit, by decide, by decide, by decide, by decide, by decide⟩
theorem witness_EncodeOfDecodeIsTheBytes :
    decodePort .host [0x05, 0x01, 0x41, 0x99] = .instr (.append [0x41]) [0x99] ∧
    decodePort .bus [0xFE, 0x02] = .instr (.burstRead 0x3E 0x02) [] := by decide
theorem witness_HostDecoderIsTotalOnWholeCommands :
    (hostLength [0x04, 0x01, 0x41] = some 3 ∧ 3 ≤ [0x04, 0x01, (0x41 : Byte)].length) ∧
    hostLength [] = none ∧ hostLength [0x05] = none ∧
    (hostLength [0x04, 0x01] = some 3 ∧ [0x04, (0x01 : Byte)].length < 3) := by decide
theorem witness_StepRunsTheDecodedInstruction :
    idle.cfg.wf = true ∧ idle.hung = false ∧
    decodeHost [0x09, 0x01] = .instr .readStatus [0x01] ∧ decodeBus [0x3D] = .instr .snop [] ∧
    ({ idle with inputs := [.host [0x09, 0x01]] } : State).inputs = [.host [0x09, 0x01]] ∧
    ({ idle with inputs := [.call [0x3D]], openBus := true } : State).inputs = [.call [0x3D]] ∧
    ({ idle with inputs := [.call [0x3D]], openBus := true } : State).openBus = true ∧
    idle.openBus = false := by decide
theorem witness_IllFormedConfigurationIsRefused :
    (State.powerOn { Config.cfgA with waitCap := 256 }).cfg.wf = false := by decide
theorem witness_LineEdgeLatchesIrqPend :
    ({ idle with inputs := [.lineFall, .handler] } : State).inputs = [.lineFall, .handler] ∧
    ({ idle with inputs := [.lineRise] } : State).inputs = [.lineRise] ∧ idle.cfg.wf = true := by decide
theorem witness_HandlerStepsExactlyWhenEnabledAndPending :
    idle.cfg.wf = true ∧ idle.hung = false ∧ idle.inputs = [] ∧
    ({ transmitting with inputs := [.handler], irqPend := true } : State).inputs = [.handler] ∧
    transmitting.irqEn = true ∧ transmitting.hung = false := by decide
theorem witness_HungMachineNeverResumes :
    ∀ l ∈ [[Input.lineFall], [.lineRise, .handler], [.host [0x01]], []],
      ({ idle with hung := true, inputs := l } : State).cfg.wf = true ∧
      ({ idle with hung := true, inputs := l } : State).hung = true := by decide
theorem witness_PlainStrobesIssueOneTransaction : (defaults idle).pollsPass 1 := by decide
theorem witness_OperationalStrobesRunTheErratumSequence :
    (defaults idle).pollsPass 7 ∧ (defaults idle).asleepDraw 0 = false ∧
    (answering idle [0x0F] [0x2E] [true] (List.replicate 7 (some 0)) []).pollsPass 7 ∧
    (answering idle [0x0F] [0x2E] [true] (List.replicate 7 (some 0)) []).asleepDraw 0 = true := by decide
theorem witness_IllegalStrobeCodeAnswersErr :
    (∀ c ∈ [(0x2F : Byte), 0x3E, 0xBC, 0xBE], ∀ k ∈ Strobe.all, idle.cfg.radio.code k ≠ c) ∧
    ∀ c ∈ [(0x30 : Byte), 0x3D, 0xBD], ∃ k ∈ Strobe.all, idle.cfg.radio.code k = c := by decide
theorem witness_RegisterWriteIssuesOneWriteOrErr :
    (∀ a ∈ [(0x30 : Addr), 0x3D], (defaults idle).cfg.radio.isStatusAddr a = true) ∧
    (∀ a ∈ [(0x2F : Addr), 0x3E], (defaults idle).cfg.radio.isStatusAddr a = false) ∧
    (defaults idle).pollsPass 1 := by decide
theorem witness_RegisterReadRoutesByAddress : (defaults idle).pollsPass 2 := by decide
theorem witness_BurstReadReadsExactlyTheCount :
    (1 : Byte) ≠ 0 ∧ (defaults idle).pollsPass ((1 : Byte).toNat + 1) ∧ (0 : Byte) = 0 := by decide
theorem witness_BurstWriteStreamsItsBytes :
    [(0x41 : Byte)] ≠ [] ∧ (defaults idle).pollsPass [(0x41 : Byte)].length := by decide
theorem witness_PowerTableWriteEndsWithNoOp :
    (defaults idle).pollsPass 1 ∧ [(0xC0 : Byte)] ≠ [] ∧
    (defaults idle).pollsPass ([(0xC0 : Byte)].length + 1) ∧
    (defaults idle).pollsPass ([(0x50 : Byte), 0xC0].length + 1) := by decide
theorem witness_BusInstructionFrame : Instr.snop.port = .bus ∧ (Instr.burstRead 0x00 1).port = .bus := by
  decide
theorem witness_ReadyFlagWaitIsBounded :
    ((capped 2 idle).pollDraw 0 = some 2 ∧ (capped 2 idle).cfg.busWaitCap = some 2) ∧
    ((capped 3 idle).pollDraw 0 = some 3 ∧ 2 < 3) ∧
    ((neverSeen idle).cfg.busWaitCap = none ∧ (neverSeen idle).pollDraw 0 = none) := by decide
theorem witness_FaultActionKeepsTheFirstCause : idle.fault = false ∧ faulted.fault = true := by decide
theorem witness_BusTimeoutEndsTheCommandAtItsFirstWait :
    ∀ s ∈ [capped 3 (queued [0x41, 0x0A, 0x42] idle), capped 3 (queued [0x41, 0x0A, 0x42] faulted),
        capped 3 (queued [0x41, 0x0A, 0x42] listening)],
      s.cfg.busWaitCap = some 2 ∧ s.pollDraw 0 = some 3 ∧ s.initDone = true ∧ s.linkState ≠ .transmitting ∧
      s.txqCount ≠ 0 ∧ s.txqCount.toNat ≤ s.cfg.txqCap ∧
      queueBytes s = [0x41] ++ [s.cfg.terminator] ++ [0x42] ∧ s.cfg.terminator ∉ [(0x41 : Byte)] ∧
      1 ≤ [(0x41 : Byte)].length ∧ [(0x41 : Byte)].length ≤ s.cfg.maxPayload := by decide
theorem witness_NeverSeenFlagHangsTheCommand :
    ∀ s ∈ [neverSeen (queued [0x41, 0x0A, 0x42] idle), neverSeen (queued [0x41, 0x0A, 0x42] faulted),
        neverSeen (queued [0x41, 0x0A, 0x42] listening)],
      s.cfg.busWaitCap = none ∧ s.pollDraw 0 = none ∧ s.initDone = true ∧ s.linkState ≠ .transmitting ∧
      s.txqCount ≠ 0 ∧ s.txqCount.toNat ≤ s.cfg.txqCap ∧
      queueBytes s = [0x41] ++ [s.cfg.terminator] ++ [0x42] ∧ s.cfg.terminator ∉ [(0x41 : Byte)] ∧
      1 ≤ [(0x41 : Byte)].length ∧ [(0x41 : Byte)].length ≤ s.cfg.maxPayload := by decide
theorem witness_CommandsBeforeInitDoNothing : State.reset.initDone = false := by decide
theorem witness_IllegalCommandsDoNothing :
    idle.initDone = true ∧ listening.linkState ≠ .idle ∧ idle.linkState ≠ .listening ∧
    transmitting.linkState = .transmitting ∧ idle.linkState ≠ .transmitting ∧
    ([] : List Byte).length = 0 ∧ idle.cfg.maxPayload < (List.replicate 17 (0x41 : Byte)).length := by decide
theorem witness_InitProgramsTheRadioAndClearsTheFlags :
    (defaults faulted).cfg.wf = true ∧ (defaults faulted).pollsPass
      (3 + (defaults faulted).cfg.configTable.length + (defaults faulted).cfg.paTable.length) := by decide
theorem witness_InitErasesTheFaultHistory :
    (defaults idle).cfg.wf = true ∧
    (defaults idle).pollsPass
      (3 + (defaults idle).cfg.configTable.length + (defaults idle).cfg.paTable.length) ∧
    defaults faulted = { defaults idle with
      linkState := (defaults faulted).linkState, fault := (defaults faulted).fault
      faultCause := (defaults faulted).faultCause, lastRx := (defaults faulted).lastRx
      irqEn := (defaults faulted).irqEn, irqPend := (defaults faulted).irqPend
      waitCnt := (defaults faulted).waitCnt } ∧
    (∃ t, exec .init (defaults idle) = .next t) ∧ ∃ t, exec .init (defaults faulted) = .next t :=
  ⟨by decide, by decide, rfl, ⟨_, rfl⟩, _, rfl⟩
theorem witness_EnterListenArmsReception :
    (defaults idle).initDone = true ∧ (defaults idle).linkState = .idle ∧ (defaults idle).pollsPass 7 := by
  decide
theorem witness_ExitListenIdlesAndFlushes :
    (defaults listening).initDone = true ∧ (defaults listening).linkState = .listening ∧
    (defaults listening).pollsPass 14 := by decide
theorem witness_BeginTxWritesTheFrameAndTransmits :
    ∀ s ∈ [defaults idle, defaults listening, defaults faulted],
      ∀ ds ∈ [[(0x41 : Byte)], List.replicate 16 0x41],
        s.initDone = true ∧ s.linkState ≠ .transmitting ∧ 1 ≤ ds.length ∧ ds.length ≤ s.cfg.maxPayload ∧
        s.pollsPass (ds.length + 22) := by decide
theorem witness_WaitIdlePollCountsUnsuccessfulPolls :
    (defaults idle).initDone = true ∧ (defaults idle).pollsPass 1 ∧
    (defaults idle).seesIdle ((defaults idle).statusDraw 0) ∧
    ¬ (answering idle [0x1F] [] [] [some 0] []).seesIdle ((answering idle [0x1F] [] [] [some 0] []).statusDraw 0) ∧
    (answering idle [0x1F] [] [] [some 0] []).pollsPass 1 ∧
    ({ idle with waitCnt := 2 } : State).cfg.waitCap ≤ ({ idle with waitCnt := 2 } : State).waitCnt.toNat + 1 ∧
    ({ idle with waitCnt := 1 } : State).waitCnt.toNat + 1 < ({ idle with waitCnt := 1 } : State).cfg.waitCap := by
  decide
theorem witness_IllegalOpcodeIsAnsweredAndCutShortStringIsRefused :
    ((0x00 : Byte) = 0x00 ∨ 0x0A ≤ (0x00 : Byte)) ∧ ((0x0A : Byte) = 0x00 ∨ 0x0A ≤ (0x0A : Byte)) ∧
    ((0xFF : Byte) = 0x00 ∨ 0x0A ≤ (0xFF : Byte)) ∧ idle.cfg.wf = true ∧ idle.hung = false ∧
    ({ idle with inputs := [.host [0x04, 0x02, 0x41]] } : State).inputs = [.host [0x04, 0x02, 0x41]] ∧
    [(0x41 : Byte)].length < (0x02 : Byte).toNat := by decide
theorem witness_HostCommandReturnsExactlyOneResult :
    Instr.waitIdlePoll.port = .host ∧ (defaults idle).hung = false ∧ (neverSeen idle).hung = false ∧
    (∃ t, exec .waitIdlePoll (defaults idle) = .next t ∧ t.hung = false) ∧
    ∃ t, exec .waitIdlePoll (neverSeen idle) = .next t ∧ t.hung = true :=
  ⟨rfl, rfl, rfl, ⟨_, rfl, by decide⟩, _, rfl, rfl⟩
theorem witness_AppendIsAllOrNothing :
    idle.cfg.txqCap ≤ 255 ∧
    idle.cfg.txqCap < (queued [0x41, 0x42, 0x43, 0x44, 0x45, 0x46] idle).txqCount.toNat + 3 ∧
    (queued [0x41, 0x42, 0x43, 0x44, 0x45, 0x46] idle).txqCount.toNat + 2 ≤ idle.cfg.txqCap := by decide
theorem witness_SendNextFullSendsTheFirstMessage :
    ∀ s ∈ [defaults (queued [0x41, 0x42, 0x0A, 0x43, 0x44, 0x0A] idle),
        defaults (queued [0x41, 0x42, 0x0A, 0x43, 0x44, 0x0A] listening)],
      s.initDone = true ∧ s.linkState ≠ .transmitting ∧ s.txqCount.toNat ≤ s.cfg.txqCap ∧
      queueBytes s = [0x41, 0x42] ++ [s.cfg.terminator] ++ [0x43, 0x44, 0x0A] ∧
      s.cfg.terminator ∉ [(0x41 : Byte), 0x42] ∧
      s.pollsPass ([(0x41 : Byte), 0x42].length + 23) := by decide
theorem witness_SendNextForceSendsTheWholeQueue :
    ∀ s ∈ [defaults (queued [0x41] idle), defaults (queued (List.replicate 8 0x41) listening)],
      s.initDone = true ∧ s.linkState ≠ .transmitting ∧ s.txqCount ≠ 0 ∧ s.txqCount.toNat ≤ s.cfg.txqCap ∧
      s.pollsPass (s.txqCount.toNat + 22) := by decide
theorem witness_SendNextWithNothingToSendDoesNothing :
    idle.initDone = true ∧ transmitting.linkState = .transmitting ∧ idle.txqCount = 0 ∧
    (queued [0x41, 0x42] idle).txqCount.toNat ≤ (queued [0x41, 0x42] idle).cfg.txqCap ∧
    idle.cfg.terminator ∉ queueBytes (queued [0x41, 0x42] idle) := by decide
theorem witness_SendNextOutsideTheQueueFaults :
    ({ idle with txqCount := 9 } : State).initDone = true ∧
    ({ idle with txqCount := 9 } : State).linkState ≠ .transmitting ∧
    ({ idle with txqCount := 9 } : State).cfg.txqCap < ({ idle with txqCount := 9 } : State).txqCount.toNat := by
  decide
theorem witness_AppendedBytesReachTheTxFifoExactly :
    (defaults idle).cfg.wf = true ∧ (defaults idle).initDone = true ∧ (defaults idle).linkState = .idle ∧
    (defaults idle).txqCount = 0 ∧
    ∀ ds ∈ [[(0x41 : Byte)], List.replicate 8 0x41], 1 ≤ ds.length ∧
      ds.length ≤ (defaults idle).cfg.txqCap ∧ (defaults idle).pollsPass (ds.length + 22) := by decide
theorem witness_HandlerOutsideListening :
    transmitting.linkState = .transmitting ∧ idle.linkState = .idle ∧ faulted.linkState = .fault := by decide
theorem witness_HandlerOutsideListening_invariant :
    (queued [] faulted).Inv ∧ (queued [] faulted).hung = false ∧ (queued [] faulted).linkState = .fault :=
  ⟨⟨by decide, by decide, by decide, by decide, by decide, by decide, by decide, by decide, by decide,
    by decide⟩, rfl, rfl⟩

/-- The frame of X5, the shortest. -/
def shortest (status : Byte) : State := receiving 0x0F [0x04, 0x03, 0x7A, 0x40, status] 1

theorem witness_GoodFrameIsDeliveredWholeOrDiscarded :
    (shortest 0x85).linkState = .listening ∧ (shortest 0x85).seesIdle ((shortest 0x85).statusDraw 0) ∧
    4 ≤ ((shortest 0x85).dataDraw 0).toNat ∧
    ((shortest 0x85).dataDraw 0).toNat ≤ (shortest 0x85).cfg.rxCap ∧
    (shortest 0x85).pollsPass (((shortest 0x85).dataDraw 0).toNat + 4) ∧
    ((shortest 0x85).dataDraw ((shortest 0x85).dataDraw 0).toNat).getLsbD 7 = true := by decide
theorem witness_CrcFailureDiscardsTheFrame :
    (shortest 0x05).linkState = .listening ∧ (shortest 0x05).seesIdle ((shortest 0x05).statusDraw 0) ∧
    4 ≤ ((shortest 0x05).dataDraw 0).toNat ∧
    ((shortest 0x05).dataDraw 0).toNat ≤ (shortest 0x05).cfg.rxCap ∧
    (shortest 0x05).pollsPass (((shortest 0x05).dataDraw 0).toNat + 4) ∧
    ((shortest 0x05).dataDraw ((shortest 0x05).dataDraw 0).toNat).getLsbD 7 = false := by decide
theorem witness_BadStateOrCountFaultsWithoutConsumingData :
    (∀ s ∈ [receiving 0x1F [] 64, receiving 0x0F [0x03] 64, receiving 0x0F [0x11] 64],
      s.linkState = .listening ∧ s.pollsPass 3) ∧
    ¬ (receiving 0x1F [] 64).seesIdle ((receiving 0x1F [] 64).statusDraw 0) ∧
    (receiving 0x0F [0x03] 64).seesIdle ((receiving 0x0F [0x03] 64).statusDraw 0) ∧
    ((receiving 0x0F [0x03] 64).dataDraw 0).toNat < 4 ∧
    (receiving 0x0F [0x11] 64).seesIdle ((receiving 0x0F [0x11] 64).statusDraw 0) ∧
    4 ≤ ((receiving 0x0F [0x11] 64).dataDraw 0).toNat ∧
    (receiving 0x0F [0x11] 64).cfg.rxCap < ((receiving 0x0F [0x11] 64).dataDraw 0).toNat := by decide
theorem witness_BusTimeoutInTheParserFaults :
    (capped 3 listening).linkState = .listening ∧ (capped 3 listening).cfg.busWaitCap = some 2 ∧
    (capped 3 listening).pollDraw 0 = some 3 ∧ 2 < 3 := by decide
theorem witness_PowerOnStateMeetsTheInvariant : Config.cfgA.wf = true := by decide

/-- A Fault state whose next item is INIT, its queue holding a byte. -/
def recovering : State := defaults (queued [0x41] { faulted with inputs := [.host [0x01]] })

theorem recovering_inv : recovering.Inv :=
  ⟨by decide, by decide, by decide, by decide, by decide, by decide, by decide, by decide, by decide,
    by decide⟩

theorem witness_EveryStepKeepsTheInvariant :
    recovering.Inv ∧ ∃ t, step recovering = .next t ∧ t ≠ recovering := by
  refine ⟨recovering_inv, _, rfl, ?_⟩
  decide
theorem witness_NoStepFaultsUnderTheInvariant : recovering.Inv := recovering_inv
theorem witness_ConfigurationIsNeverWritten : ∃ t, step recovering = .next t := ⟨_, rfl⟩
theorem witness_LogsAreAppendOnlyAndTheBusIsTheRlcsAlone :
    ∃ t, step recovering = .next t ∧ recovering.openBus = false ∧ t.busTrace ≠ recovering.busTrace := by
  refine ⟨_, rfl, rfl, ?_⟩
  decide
theorem witness_OnlyInitClearsFault :
    ∃ t, step recovering = .next t ∧ recovering.fault = true ∧ t.fault = false := by
  refine ⟨_, rfl, rfl, ?_⟩
  decide
theorem witness_FaultStateIsLeftOnlyByInitOrTransmission :
    (∃ t, step recovering = .next t ∧ recovering.linkState = .fault ∧ t.linkState ≠ .fault) ∧
    ∃ t, step { receiving 0x1F [] 64 with inputs := [.handler] } = .next t ∧
      (receiving 0x1F [] 64).linkState ≠ .fault ∧ t.linkState = .fault := by
  refine ⟨⟨_, rfl, rfl, ?_⟩, _, rfl, ?_, ?_⟩ <;> decide
theorem witness_InitDoneIsSetByInitAndNeverCleared :
    (∃ t, step recovering = .next t ∧ recovering.initDone = true) ∧
    ∃ t, step (defaults { State.reset with inputs := [.host [0x01]] }) = .next t ∧
      State.reset.initDone = false ∧ t.initDone = true := by
  refine ⟨⟨_, rfl, rfl⟩, _, rfl, rfl, ?_⟩
  decide
theorem witness_NoTxFifoWriteWhileTransmitting :
    (∀ a, Radio.spec.writeByte a ≠ Radio.spec.burstWriteByte Radio.spec.fifoAddr) ∧
    Radio.spec.burstWriteByte Radio.spec.paTableAddr ≠ Radio.spec.burstWriteByte Radio.spec.fifoAddr ∧
    transmitting.cfg.radio = Radio.spec ∧
    Instr.sendNextForce.port = .host ∧ transmitting.linkState = .transmitting ∧
    ∃ t, exec .sendNextForce transmitting = .next t := ⟨by decide, by decide, rfl, rfl, rfl, _, rfl⟩
theorem witness_OnlyTheListeningHandlerDelivers :
    ∃ t, step (shortest 0x85) = .next t ∧ t.sinkLog ≠ (shortest 0x85).sinkLog := by
  refine ⟨_, rfl, ?_⟩
  decide
theorem witness_HostCommandFrame :
    ∀ i ∈ [Instr.init, .append [0x41], .sendNextForce, .readStatus], i.port = .host ∧
      (nextOf (exec i recovering)).isSome = true := by decide
theorem witness_OnlyTheLineSetsIrqPend :
    ∃ t, step { idle with inputs := [.lineFall] } = .next t ∧ idle.irqPend = false ∧ t.irqPend = true :=
  ⟨_, rfl, rfl, rfl⟩
theorem witness_OnlyListeningOrTransmittingArmsTheInterrupt :
    ∃ t, step (defaults { idle with inputs := [.host [0x02]] }) = .next t ∧ idle.irqEn = false ∧
      t.irqEn = true := by
  refine ⟨_, rfl, rfl, ?_⟩
  decide

end Sys2Proof.Tests
end

/-! SUPPORT. The step by the head of the schedule, and what a transition may do to the logs that rule R13
observes: proofs of the obligations of 00_scope. -/

namespace Sys2Proof.Machine

/-! ### The step, by the head of the schedule -/

theorem step_illFormed {s : State} (hw : s.cfg.wf = false) : step s = .refused .illFormedConfig := by
  simp [step, hw]

theorem step_host {s : State} {bytes left : List Byte} {rest : List Input} {i : Instr}
    (hw : s.cfg.wf = true) (hh : s.hung = false) (hs : s.inputs = .host bytes :: rest)
    (hd : decodeHost bytes = .instr i left) : step s = exec i (consumeHost left s) := by
  simp [step, hw, hh, hs, hd]

theorem step_call {s : State} {bytes left : List Byte} {rest : List Input} {i : Instr}
    (hw : s.cfg.wf = true) (hh : s.hung = false) (ho : s.openBus = true)
    (hs : s.inputs = .call bytes :: rest) (hd : decodeBus bytes = .instr i left) :
    step s = exec i (consumeCall left s) := by
  simp [step, hw, hh, ho, hs, hd]

theorem step_call_closed {s : State} {bytes : List Byte} {rest : List Input}
    (hw : s.cfg.wf = true) (hh : s.hung = false) (ho : s.openBus = false)
    (hs : s.inputs = .call bytes :: rest) : step s = .refused .rawBusAccess := by
  simp [step, hw, hh, ho, hs]

theorem step_handler {s : State} {rest : List Input} (hw : s.cfg.wf = true) (hh : s.hung = false)
    (hs : s.inputs = .handler :: rest) : step s = .next (handlerTurn (dropInput s)) := by
  simp [step, hw, hh, hs]

theorem step_idle {s : State} (hw : s.cfg.wf = true) (hh : s.hung = false) (hs : s.inputs = []) :
    step s = .next (handlerTurn s) := by
  simp [step, hw, hh, hs]

theorem dropInput_eq {s : State} {x : Input} {rest : List Input} (hs : s.inputs = x :: rest) :
    dropInput s = { s with inputs := rest } := by
  simp [dropInput, hs]

theorem consumeHost_eq {s : State} {x : Input} {rest : List Input} (left : List Byte)
    (hs : s.inputs = x :: rest) :
    consumeHost left s = { s with inputs := if left = [] then rest else .host left :: rest } := by
  simp [consumeHost, hs]

theorem consumeCall_eq {s : State} {x : Input} {rest : List Input} (left : List Byte)
    (hs : s.inputs = x :: rest) :
    consumeCall left s = { s with inputs := if left = [] then rest else .call left :: rest } := by
  simp [consumeCall, hs]

theorem irqOut_iff (s : State) : irqOut s = true ↔ s.irqEn ∧ s.irqPend := by
  rw [irqOut, Bool.and_eq_true]

theorem handlerTurn_eq (s : State) :
    handlerTurn s = if s.irqEn ∧ s.irqPend then handlerStep s else s := by
  simp only [handlerTurn, irqOut_iff]

theorem takeCounted_port {f : List Byte → Instr} (hf : ∀ ds, (f ds).port = .host)
    {bytes left : List Byte} {i : Instr} (h : takeCounted f bytes = .instr i left) : i.port = .host := by
  unfold takeCounted at h
  split at h
  · cases h
  · split at h <;> cases h
    exact hf _

theorem h0Table_port {op : Byte} {i : Instr} (h : h0Table.lookup op = some i) : i.port = .host := by
  have entries : ∀ e ∈ h0Table, e.2.port = .host := by decide
  obtain ⟨l₁, l₂, hl, -⟩ := List.lookup_eq_some_iff.1 h
  exact entries (op, i) (by simp [hl])

/-- R92, R93: what the host port decodes is a host command. -/
theorem decodeHost_port {bytes left : List Byte} {i : Instr} (h : decodeHost bytes = .instr i left) :
    i.port = .host := by
  unfold decodeHost at h
  split at h
  · cases h
  split at h
  · next hj => cases h; exact h0Table_port hj
  split at h
  · exact takeCounted_port (fun _ => rfl) h
  split at h
  · exact takeCounted_port (fun _ => rfl) h
  · cases h; rfl

/-! ### The middle of a transition

A host command writes registers and runs bus primitives before it replies; a run of the bus
dispatcher alone does the same. None of this touches a log but the bus trace, which only grows. -/

/-- What holds of a state u inside a transition from s, before its reply or its hang. -/
structure MidCommand (s u : State) : Prop where
  cfg : u.cfg = s.cfg
  hung : u.hung = s.hung
  openBus : u.openBus = s.openBus
  hostLog : u.hostLog = s.hostLog
  sinkLog : u.sinkLog = s.sinkLog
  busTrace : s.busTrace <+: u.busTrace

theorem MidCommand.refl (s : State) : MidCommand s s := ⟨rfl, rfl, rfl, rfl, rfl, List.prefix_rfl⟩

/-- A write of registers and memories alone. -/
theorem MidCommand.write {s u v : State} (h : MidCommand s u) (hc : v.cfg = u.cfg := by rfl)
    (hh : v.hung = u.hung := by rfl) (ho : v.openBus = u.openBus := by rfl)
    (hl : v.hostLog = u.hostLog := by rfl) (hk : v.sinkLog = u.sinkLog := by rfl)
    (hb : v.busTrace = u.busTrace := by rfl) : MidCommand s v :=
  ⟨hc.trans h.cfg, hh.trans h.hung, ho.trans h.openBus, hl.trans h.hostLog, hk.trans h.sinkLog,
    hb ▸ h.busTrace⟩

/-- R120 to R129: bus activity. -/
theorem MidCommand.bus {s u v : State} (h : MidCommand s u) (hb : BusOnly u v) : MidCommand s v := by
  obtain ⟨new, _, _, _, _, rfl⟩ := hb
  exact ⟨h.cfg, h.hung, h.openBus, h.hostLog, h.sinkLog, h.busTrace.trans (List.prefix_append _ _)⟩

theorem MidCommand.leftListening {s u : State} (h : MidCommand s u) : MidCommand s (leftListening u) := by
  unfold Machine.leftListening
  split
  · exact h.write
  · exact h

/-- R157: a transmission start that is cut off. -/
theorem MidCommand.txCut {s u v : State} (h : MidCommand s u) (hc : TxCut u v) : MidCommand s v := by
  rcases hc with ⟨-, hb⟩ | hb
  · exact (h.write (v := disarm u)).bus hb
  · exact (h.leftListening.write (v := arm _)).bus hb

/-! ### The end of a host command -/

/-- R96, R121: how a host command ends: with its result, the value 0 unless the code is OK or NOT_IDLE, or,
under INF alone, never. -/
inductive CommandEnd (cmd : Instr) (s : State) : State → Prop where
  | replied {u : State} {code : ResultCode} {value : Word32} (mid : MidCommand s u)
      (zero : code ≠ .ok → code ≠ .notIdle → value = 0) : CommandEnd cmd s (reply cmd code value u)
  | hung {u : State} (mid : MidCommand s u) (inf : s.cfg.busWaitCap = none) : CommandEnd cmd s (hang u)

/-- R149, R156: a command turned away. -/
theorem CommandEnd.turnedAway (cmd : Instr) (s : State) (code : ResultCode) :
    CommandEnd cmd s (reply cmd code 0 s) := .replied (.refl s) fun _ _ => rfl

/-- R96: a value returned with OK. -/
theorem CommandEnd.done {cmd : Instr} {s u : State} (h : MidCommand s u) (value : Word32) :
    CommandEnd cmd s (reply cmd .ok value u) := .replied h (absurd rfl)

/-- R241, R121: a command cut off at a ready-flag wait, in either way. -/
theorem CommandEnd.cut {cmd : Instr} {s u t : State} (hu : MidCommand s u)
    (h : (s.cfg.busWaitCap ≠ none ∧ t = reply cmd .busTimeout 0 (faultAction .busTimeout u)) ∨
      (s.cfg.busWaitCap = none ∧ t = hang u)) : CommandEnd cmd s t := by
  rcases h with ⟨-, rfl⟩ | ⟨hc, rfl⟩
  · exact .replied hu.write fun _ _ => rfl
  · exact .hung hu hc

theorem CutOff.commandEnd {cmd : Instr} {s v t : State} (h : CutOff cmd v t) (hv : MidCommand s v) :
    CommandEnd cmd s t := by
  obtain ⟨u, hu, h⟩ := h
  exact .cut (hv.bus hu) (hv.cfg ▸ h)

theorem execInit_commandEnd {s t : State} (h : execInit s = .next t) : CommandEnd .init s t := by
  have cleared : MidCommand s (clearFlags s) := (MidCommand.refl s).write
  rcases execInit_next h with h | h | ⟨u, hu, rfl⟩
  · exact h.commandEnd (.refl s)
  · exact h.commandEnd cleared
  · exact .done (cleared.bus hu).write 0

theorem execEnterListen_commandEnd {s t : State} (h : execEnterListen s = .next t) :
    CommandEnd .enterListen s t := by
  have armed : MidCommand s (arm s) := (MidCommand.refl s).write
  rcases execEnterListen_next h with ⟨code, rfl, -⟩ | ⟨-, -, h | ⟨u, hu, rfl⟩⟩
  · exact .turnedAway _ _ _
  · exact h.commandEnd armed
  · exact .done (armed.bus hu).write 0

theorem execExitListen_commandEnd {s t : State} (h : execExitListen s = .next t) :
    CommandEnd .exitListen s t := by
  have disarmed : MidCommand s (disarm s) := (MidCommand.refl s).write
  rcases execExitListen_next h with ⟨code, rfl, -⟩ | ⟨-, -, h | ⟨u, hu, rfl⟩⟩
  · exact .turnedAway _ _ _
  · exact h.commandEnd disarmed
  · exact .done (disarmed.bus hu).write 0

theorem execBeginTx_commandEnd {ds : List Byte} {s t : State} (h : execBeginTx ds s = .next t) :
    CommandEnd (.beginTx ds) s t := by
  rcases execBeginTx_next h with ⟨code, rfl, -⟩ | ⟨-, -, ⟨u, hu, h⟩ | ⟨u, hu, rfl⟩⟩
  · exact .turnedAway _ _ _
  · exact .cut ((MidCommand.refl s).txCut hu) h
  · exact .done (((MidCommand.refl s).leftListening.write (v := arm _)).bus hu).write 0

theorem execAppend_commandEnd {ds : List Byte} {s t : State} (h : execAppend ds s = .next t) :
    CommandEnd (.append ds) s t := by
  unfold execAppend at h
  split at h <;> cases h
  · exact .turnedAway _ _ _
  · exact .done (MidCommand.refl s).write 1

theorem sendNext_commandEnd {cmd : Instr} {pick : State → Option Nat} {s t : State}
    (h : ifInitialized cmd s (sendNext cmd pick) = .next t) : CommandEnd cmd s t := by
  rcases ifInitialized_next h with ⟨-, rfl⟩ | ⟨-, h⟩
  · exact .turnedAway _ _ _
  have compacted (len : Nat) : MidCommand s (compact len s) := (MidCommand.refl s).write
  rcases sendNext_next h with rfl | ⟨-, -, -, len, -, ⟨u, hu, h⟩ | ⟨u, hu, rfl⟩⟩
  · exact .turnedAway _ _ _
  · exact .cut ((compacted len).txCut hu) h
  · exact .done (((compacted len).leftListening.write (v := arm _)).bus hu).write _

theorem execWaitIdlePoll_commandEnd {s t : State} (h : execWaitIdlePoll s = .next t) :
    CommandEnd .waitIdlePoll s t := by
  rcases execWaitIdlePoll_next h with rfl | ⟨-, h | ⟨u, st, hu, rfl | ⟨-, rfl⟩ | ⟨-, rfl⟩⟩⟩
  · exact .turnedAway _ _ _
  · exact h.commandEnd (.refl s)
  · exact .done ((MidCommand.refl s).bus hu).write _
  · exact .replied ((MidCommand.refl s).bus hu).write fun _ _ => rfl
  · exact .replied ((MidCommand.refl s).bus hu).write fun _ h => absurd rfl h

/-- R96: every host command ends so. -/
theorem exec_commandEnd {i : Instr} {s t : State} (hp : i.port = .host) (h : exec i s = .next t) :
    CommandEnd i s t := by
  cases i with
  | init => exact execInit_commandEnd h
  | enterListen => exact execEnterListen_commandEnd h
  | exitListen => exact execExitListen_commandEnd h
  | beginTx ds => exact execBeginTx_commandEnd h
  | append ds => exact execAppend_commandEnd h
  | sendNextFull => exact sendNext_commandEnd h
  | sendNextForce => exact sendNext_commandEnd h
  | waitIdlePoll => exact execWaitIdlePoll_commandEnd h
  | readStatus => cases h; exact .done (.refl s) _
  | illegalOpcode op => cases h; exact .turnedAway _ _ _
  | _ => cases hp

/-! ### The end of a bus instruction run alone -/

theorem BusSpec.call {α : Type} {s : State} {f : Flow α} (hf : BusSpec s f) (r : α → CallReturn) :
    BusSpec s (f.andThen fun a u => .ok (r a) u) := hf.andThen fun _ u => BusOnly.refl u

/-- R122 to R129: a bus instruction run alone is a bus primitive and its return. -/
theorem exec_busCall {i : Instr} (hp : i.port = .bus) (s : State) :
    ∃ f, BusSpec s f ∧ exec i s = .next (endCall f) := by
  cases i with
  | sres | sfstxon | sxoff | scal | srx | stx | sidle | strobe37 | swor | spwd | sfrx | sftx | sworrst
  | snop | snopRx => exact ⟨_, (legalStrobe_spec _ s).call _, rfl⟩
  | regWriteSingle a v => exact ⟨_, (busRegWrite_spec a v s).call _, rfl⟩
  | regReadConfig a | regReadStatus a => exact ⟨_, (busRegRead_spec a s).call _, rfl⟩
  | burstWrite a ds => exact ⟨_, (busBurstWrite_spec a ds s).call _, rfl⟩
  | txfifoWriteBurst ds => exact ⟨_, (busBurstWrite_spec _ ds s).call _, rfl⟩
  | burstRead a n => exact ⟨_, (busBurstRead_spec a _ s).call _, rfl⟩
  | rxfifoReadBurst n => exact ⟨_, (busBurstRead_spec _ _ s).call _, rfl⟩
  | patableWriteSingle v => exact ⟨_, (busPaWrite_spec [v] s).call _, rfl⟩
  | patableWriteBurst ds =>
    exact ⟨_, ((busBurstWrite_spec _ ds s).andThen fun _ u => paPointerReset_spec u).call _, rfl⟩
  | _ => cases hp

/-! ### The logs over a whole transition -/

/-- R13, R47, R48: the logs are append-only; the bit that lays the dispatcher open stays. -/
structure LogsGrow (s t : State) : Prop where
  busTrace : s.busTrace <+: t.busTrace
  sinkLog : s.sinkLog <+: t.sinkLog
  hostLog : s.hostLog <+: t.hostLog
  openBus : t.openBus = s.openBus

theorem LogsGrow.trans {s u t : State} (h : LogsGrow s u) (h' : LogsGrow u t) : LogsGrow s t :=
  ⟨h.busTrace.trans h'.busTrace, h.sinkLog.trans h'.sinkLog, h.hostLog.trans h'.hostLog,
    h'.openBus.trans h.openBus⟩

/-- A transition that writes no log. -/
theorem LogsGrow.of_same {s t : State} (hb : t.busTrace = s.busTrace := by rfl)
    (hk : t.sinkLog = s.sinkLog := by rfl) (hl : t.hostLog = s.hostLog := by rfl)
    (ho : t.openBus = s.openBus := by rfl) : LogsGrow s t :=
  ⟨hb ▸ List.prefix_rfl, hk ▸ List.prefix_rfl, hl ▸ List.prefix_rfl, ho⟩

theorem MidCommand.logsGrow {s u : State} (h : MidCommand s u) : LogsGrow s u :=
  ⟨h.busTrace, h.sinkLog ▸ List.prefix_rfl, h.hostLog ▸ List.prefix_rfl, h.openBus⟩

theorem reply_logsGrow (cmd : Instr) (code : ResultCode) (value : Word32) (s : State) :
    LogsGrow s (reply cmd code value s) :=
  ⟨List.prefix_rfl, List.prefix_rfl, List.prefix_append _ _, rfl⟩

theorem CommandEnd.logsGrow {cmd : Instr} {s t : State} (h : CommandEnd cmd s t) : LogsGrow s t := by
  cases h with
  | replied mid zero => exact mid.logsGrow.trans (reply_logsGrow _ _ _ _)
  | hung mid inf => exact mid.logsGrow.trans .of_same

theorem BusSpec.endCall_logsGrow {s : State} {f : Flow CallReturn} (hf : BusSpec s f) :
    LogsGrow s (endCall f) := by
  cases f with
  | ok r u => exact ((MidCommand.refl s).bus hf).logsGrow.trans .of_same
  | raised c u => exact ((MidCommand.refl s).bus hf.1).logsGrow.trans .of_same
  | hung u => exact ((MidCommand.refl s).bus hf.1).logsGrow.trans .of_same

theorem exec_logsGrow {i : Instr} {s t : State} (h : exec i s = .next t) : LogsGrow s t := by
  cases hp : i.port with
  | host => exact (exec_commandEnd hp h).logsGrow
  | bus =>
    obtain ⟨f, hf, he⟩ := exec_busCall hp s
    cases he.symm.trans h
    exact hf.endCall_logsGrow

/-! ### The handler -/

theorem parserFault_logsGrow (c : FaultCause) (s : State) : LogsGrow s (parserFault c s) := by
  unfold parserFault
  split <;> exact .of_same

/-- R197: the sink log gains the delivered frame, if any. -/
theorem deliver_logsGrow (n : Nat) (s : State) : LogsGrow s (deliver n s) := by
  rcases deliver_cases n s with ⟨-, h⟩ | ⟨-, h⟩ <;> rw [h]
  · exact .of_same
  · exact ⟨List.prefix_rfl, List.prefix_append _ _, List.prefix_rfl, rfl⟩

theorem handlerListening_logsGrow (s : State) : LogsGrow s (handlerListening s) := by
  have drained : ∀ {u}, BusOnly (setLink .idle s) u → LogsGrow s u := fun hu =>
    ((MidCommand.refl s).write.bus hu).logsGrow
  rcases handlerListening_cases s with
    ⟨u, hu, ⟨-, h⟩ | ⟨c, -, h⟩⟩ | ⟨u, bs, hu, -, -, h | h⟩ <;> rw [h]
  · exact (drained hu).trans .of_same
  · exact (drained hu).trans (parserFault_logsGrow c u)
  · exact (drained hu).trans (.trans .of_same (parserFault_logsGrow _ (storeFrame bs u)))
  · exact (drained hu).trans (.trans .of_same
      ((deliver_logsGrow bs.length (storeFrame bs u)).trans .of_same))

/-- R250: the logs over the Handler's turn, which touches the bus in Listening alone. -/
theorem handlerTurn_logs (s : State) : LogsGrow s (handlerTurn s) ∧
    ((handlerTurn s).busTrace = s.busTrace ∨
      (s.linkState = .listening ∧ s.irqEn = true ∧ s.irqPend = true)) := by
  rw [handlerTurn_eq]
  split
  · next hirq =>
    cases hl : s.linkState with
    | listening =>
      refine ⟨?_, .inr ⟨rfl, hirq⟩⟩
      simp only [handlerStep, hl]
      exact .trans .of_same (handlerListening_logsGrow (handlerEntry s))
    | transmitting | idle | fault =>
      simp only [handlerStep, hl]
      exact ⟨.of_same, .inl rfl⟩
  · exact ⟨.of_same, .inl rfl⟩

/-! ### The step's logs -/

theorem hungTurn_logs (s : State) : LogsGrow s (hungTurn s) ∧ (hungTurn s).busTrace = s.busTrace := by
  unfold hungTurn
  split <;> exact ⟨.of_same, rfl⟩

/-- R147: who adds to the bus trace: a host command, the Handler in Listening, or a call to a dispatcher laid
open. -/
def AddsToBus (s : State) : Prop :=
  (∃ i, i.port = .host ∧ s.runsHost i) ∨
  (s.linkState = .listening ∧ s.irqEn = true ∧ s.irqPend = true ∧
    (s.inputs = [] ∨ ∃ rest, s.inputs = .handler :: rest)) ∨
  s.openBus = true

theorem step_logs {s t : State} (h : step s = .next t) :
    LogsGrow s t ∧ (t.busTrace = s.busTrace ∨ AddsToBus s) := by
  obtain ⟨-, ⟨-, rfl⟩ | ⟨-, ⟨hs, rfl⟩ | ⟨rest, hs, rfl⟩ | ⟨rest, hs, rfl⟩ | ⟨rest, hs, rfl⟩ |
    ⟨bytes, rest, i, left, hs, hd, h⟩ | ⟨bytes, rest, i, left, hs, ho, hd, h⟩⟩⟩ := step_next h
  case inl => exact ⟨(hungTurn_logs s).1, .inl (hungTurn_logs s).2⟩
  · obtain ⟨hg, hb | ⟨hl, he, hp⟩⟩ := handlerTurn_logs s
    · exact ⟨hg, .inl hb⟩
    · exact ⟨hg, .inr (.inr (.inl ⟨hl, he, hp, .inl hs⟩))⟩
  · obtain ⟨hg, hb | ⟨hl, he, hp⟩⟩ := handlerTurn_logs (dropInput s)
    · exact ⟨.trans .of_same hg, .inl hb⟩
    · exact ⟨.trans .of_same hg, .inr (.inr (.inl ⟨hl, he, hp, .inr ⟨rest, hs⟩⟩))⟩
  · exact ⟨.of_same, .inl rfl⟩
  · exact ⟨.of_same, .inl rfl⟩
  · exact ⟨.trans .of_same (exec_logsGrow h),
      .inr (.inl ⟨i, decodeHost_port hd, bytes, rest, left, hs, hd⟩)⟩
  · exact ⟨.trans .of_same (exec_logsGrow h), .inr (.inr (.inr ho))⟩

/-! ### The configuration -/

theorem Params_wf_iff (c : Config.Params) : c.wf = true ↔
    (1 ≤ c.txqCap ∧ c.txqCap ≤ c.maxPayload ∧ c.maxPayload ≤ 255) ∧ c.maxPayload + 1 ≤ c.txFifoCap ∧
    (4 ≤ c.rxCap ∧ c.rxCap ≤ 255) ∧ (1 ≤ c.paTable.length ∧ c.paTable.length ≤ c.paTableCap) ∧
    (1 ≤ c.waitCap ∧ c.waitCap ≤ 255) ∧ ∀ e ∈ c.configTable, c.radio.isConfigAddr e.1 = true := by
  simp only [Config.Params.wf, Bool.and_eq_true, decide_eq_true_eq, List.all_eq_true, and_assoc]

/-- R104: the configuration range in the spec's encodings. -/
theorem spec_isConfigAddr_iff : ∀ a : Addr, Radio.spec.isConfigAddr a = true ↔ a ≤ 0x2E ∨ a = 0x3E := by
  decide

/-! ### The obligations -/

/-- Settles O6, by the step's equation at a host item and at a call item. -/
theorem stepRunsTheDecodedInstruction : Obligations.StepRunsTheDecodedInstruction := by
  intro s bytes left rest i hw hh
  refine ⟨fun hs hd => ?_, fun ho hs hd => ?_, fun ho hs => step_call_closed hw hh ho hs⟩
  · rw [step_host hw hh hs hd, consumeHost_eq left hs]
  · rw [step_call hw hh ho hs hd, consumeCall_eq left hs]

/-- Settles O7, by R15's conditions, the range's table and the step's first check. -/
theorem illFormedConfigurationIsRefused : Obligations.IllFormedConfigurationIsRefused :=
  ⟨Params_wf_iff, spec_isConfigAddr_iff, fun _ => step_illFormed⟩

/-- Settles O9, by the step's equation at a handler item and with no item left. -/
theorem handlerStepsExactlyWhenEnabledAndPending :
    Obligations.HandlerStepsExactlyWhenEnabledAndPending := by
  intro s rest hw hh
  refine ⟨fun hs => ?_, fun hs => ?_⟩
  · rw [step_handler hw hh hs, dropInput_eq hs, handlerTurn_eq]
  · rw [step_idle hw hh hs, handlerTurn_eq]

/-- Settles O35, by the two ends of a host command. -/
theorem hostCommandReturnsExactlyOneResult : Obligations.HostCommandReturnsExactlyOneResult := by
  intro i s t hp hh h
  cases exec_commandEnd hp h with
  | replied mid zero => exact .inl ⟨mid.hung.trans hh, ⟨_, _⟩, by rw [reply_hostLog, mid.hostLog], zero⟩
  | hung mid inf => exact .inr ⟨rfl, mid.hostLog, inf⟩

/-- Settles O52, by what each kind of step does to the logs. -/
theorem logsAreAppendOnlyAndTheBusIsTheRlcsAlone :
    Obligations.LogsAreAppendOnlyAndTheBusIsTheRlcsAlone := by
  intro s t h
  obtain ⟨⟨⟨bus, hbus⟩, ⟨sink, hsink⟩, ⟨host, hhost⟩, hopen⟩, hwho⟩ := step_logs h
  refine ⟨⟨bus, hbus.symm⟩, ⟨sink, hsink.symm⟩, ⟨host, hhost.symm⟩, hopen, fun hclosed hne => ?_⟩
  rcases hwho with hsame | hhost | hhandler | hlaidOpen
  · exact absurd hsame hne
  · exact .inl hhost
  · exact .inr hhandler
  · rw [hclosed] at hlaidOpen; cases hlaidOpen

end Sys2Proof.Machine

/-! SUPPORT. What a step may write, said once as the single writes of each agent and the ways a transition
ends, and from it the invariants and frames of the registers: proofs of the obligations of 10_state. -/

namespace Sys2Proof.Machine

/-! ### The writes of a transition -/

/-- Who takes a transition: the Host's command, the bus dispatcher run alone, the Handler, the Line's falling
edge, or none of them. -/
inductive Agent where
  | host (i : Instr)
  | dispatcher
  | handler
  | fallingEdge
  | nobody

/-- R212, R213: the two forms of SEND_NEXT. -/
def SendsNext (i : Instr) : Prop := i = .sendNextFull ∨ i = .sendNextForce

/-- R157: the commands that start a transmission. -/
def Transmits (i : Instr) : Prop := (∃ ds, i = .beginTx ds) ∨ SendsNext i

/-- R152, R157: the commands that arm the completion interrupt. -/
def Arms (i : Instr) : Prop := i = .enterListen ∨ Transmits i

/-- The single writes that each agent makes, each where its rules make it. The fault action (R240) and a
hang (R121) are none of them: they end a transition (`Ends`). -/
inductive Write : Agent → State → State → Prop where
  | bus {a u} (new : List Transaction) (p q r w : Nat) : Write a u (u.busAfter new p q r w)
  | reply {i u} (code : ResultCode) (value : Word32) : Write (.host i) u (reply i code value u)
  | callReturn {u} (r : CallReturn) : Write .dispatcher u { u with callReturn := r }
  | clearFlags {u} : Write (.host .init) u (clearFlags u)
  | setInitDone {u} : Write (.host .init) u (setInitDone u)
  | arm {i u} (hi : Arms i) : Write (.host i) u (arm u)
  | disarm {a u} : Write a u (disarm u)
  | listen {u} (hl : u.linkState = .idle) : Write (.host .enterListen) u (setLink .listening u)
  | leave {a u} (hl : u.linkState = .listening ∨ u.linkState = .transmitting) :
      Write a u (setLink .idle u)
  | transmit {i u} (hi : Transmits i) : Write (.host i) u (setLink .transmitting u)
  | setWaitCnt {u} (v : Byte) (hv : v.toNat ≤ u.cfg.waitCap) :
      Write (.host .waitIdlePoll) u (setWaitCnt v u)
  | enqueue {u} (ds : List Byte) (hd : u.txqCount.toNat + ds.length ≤ u.cfg.txqCap) :
      Write (.host (.append ds)) u (enqueue ds u)
  | compact {i u} (hi : SendsNext i) (len : Nat) : Write (.host i) u (compact len u)
  | latchEdge {u} : Write .fallingEdge u (latchEdge u)
  | handlerEntry {u} : Write .handler u (handlerEntry u)
  | storeFrame {u} (bs : List Byte) (hb : bs.length ≤ u.cfg.rxCap) : Write .handler u (storeFrame bs u)
  | tookRoom {u} : Write .handler u u.tookRoom
  | toSink {u} (d : Delivery) : Write .handler u (toSink d u)
  | setLastRx {u} (o : RxOutcome) : Write .handler u (setLastRx o u)

/-- A sequence of an agent's writes. -/
abbrev Writes (a : Agent) : State → State → Prop := Relation.ReflTransGen (Write a)

/-- R50 (a): IRQ_EN = 1 only while Listening or Transmitting. -/
def IrqOnAir (s : State) : Prop :=
  s.irqEn = true → s.linkState = .listening ∨ s.linkState = .transmitting

/-- How a transition ends after its writes: at rest, by the fault action, or never. The reply of a faulted
command writes no register of the fault action, so it is taken among the writes before it. -/
inductive Ends (a : Agent) (s : State) : State → Prop where
  | settled {u} (path : Writes a s u) (onAir : IrqOnAir s → IrqOnAir u) : Ends a s u
  | faulted {u} (path : Writes a s u) (c : FaultCause) : Ends a s (faultAction c u)
  | hung {u} (path : Writes a s u) : Ends a s (hang u)

section

variable {a : Agent} {i : Instr} {s t u v : State}

theorem Writes.write (h : Writes a s u) (hw : Write a u v) : Writes a s v := h.tail hw

theorem Writes.preserves {P : State → Prop} (hw : ∀ u v, Write a u v → P u → P v) (h : Writes a s u)
    (hs : P s) : P u := by
  induction h with
  | refl => exact hs
  | tail _ hlast ih => exact hw _ _ hlast ih

/-- What each write, the fault action and a hang preserve holds at the end. -/
theorem Ends.preserves {P : State → Prop} (h : Ends a s t) (hw : ∀ u v, Write a u v → P u → P v)
    (hs : P s) (hf : ∀ c u, P u → P (faultAction c u)) (hh : ∀ u, P u → P (hang u)) : P t := by
  cases h with
  | settled path _ => exact path.preserves hw hs
  | faulted path c => exact hf c _ (path.preserves hw hs)
  | hung path => exact hh _ (path.preserves hw hs)

/-- A field that no write, no fault action and no hang changes is as before. -/
theorem Ends.keeps {β : Type} {f : State → β} (h : Ends a s t) (hw : ∀ u v, Write a u v → f v = f u)
    (hf : ∀ c u, f (faultAction c u) = f u := by exact fun _ _ => rfl)
    (hh : ∀ u, f (hang u) = f u := by exact fun _ => rfl) : f t = f s :=
  h.preserves (P := fun u => f u = f s) (fun u v hv hu => (hw u v hv).trans hu) rfl
    (fun c u hu => (hf c u).trans hu) (fun u hu => (hh u).trans hu)

/-! ### What no write changes, and what few agents' writes do -/

theorem Write.cfg (h : Write a u v) : v.cfg = u.cfg := by cases h <;> rfl

theorem Write.hung (h : Write a u v) : v.hung = u.hung := by cases h <;> rfl

/-- R42: INIT_DONE is never cleared. -/
theorem Write.initDone_mono (h : Write a u v) (hu : u.initDone = true) : v.initDone = true := by
  cases h with
  | setInitDone => rfl
  | _ => exact hu

theorem Write.initDone (h : Write a u v) (ha : a ≠ .host .init) : v.initDone = u.initDone := by
  cases h with
  | setInitDone => exact absurd rfl ha
  | _ => rfl

theorem Write.fault (h : Write a u v) (ha : a ≠ .host .init) :
    v.fault = u.fault ∧ v.faultCause = u.faultCause := by
  cases h with
  | clearFlags => exact absurd rfl ha
  | _ => exact ⟨rfl, rfl⟩

/-- R33: no write enters the Fault state; the fault action does. -/
theorem Write.not_enters_fault (h : Write a u v) (hu : u.linkState ≠ .fault) : v.linkState ≠ .fault := by
  cases h with
  | clearFlags | listen | leave | transmit => exact nofun
  | _ => exact hu

theorem Write.stays_fault (h : Write a u v) (hinit : a ≠ .host .init)
    (htx : ∀ i, Transmits i → a ≠ .host i) (hu : u.linkState = .fault) : v.linkState = .fault := by
  cases h with
  | clearFlags => exact absurd rfl hinit
  | transmit hi => exact absurd rfl (htx _ hi)
  | listen hl => rw [hu] at hl; cases hl
  | leave hl => rw [hu] at hl; rcases hl with hl | hl <;> cases hl
  | _ => exact hu

theorem Write.irqPend (h : Write a u v) (ha : a ≠ .fallingEdge) (hu : u.irqPend = false) :
    v.irqPend = false := by
  cases h with
  | latchEdge => exact absurd rfl ha
  | clearFlags | arm | handlerEntry => rfl
  | _ => exact hu

theorem Write.irqEn (h : Write a u v) (ha : ∀ i, Arms i → a ≠ .host i) (hu : u.irqEn = false) :
    v.irqEn = false := by
  cases h with
  | arm hi => exact absurd rfl (ha _ hi)
  | clearFlags | disarm => rfl
  | _ => exact hu

theorem Write.sinkLog (h : Write a u v) (ha : a ≠ .handler) : v.sinkLog = u.sinkLog := by
  cases h with
  | toSink => exact absurd rfl ha
  | _ => rfl

/-! ### The writes of a host command -/

theorem Write.host_rxbuf (h : Write (.host i) u v) : v.rxbuf = u.rxbuf := by cases h <;> rfl

theorem Write.host_inputs (h : Write (.host i) u v) : v.inputs = u.inputs := by cases h <;> rfl

theorem Write.host_roomAnswers (h : Write (.host i) u v) : v.roomAnswers = u.roomAnswers := by
  cases h <;> rfl

theorem Write.host_callReturn (h : Write (.host i) u v) : v.callReturn = u.callReturn := by
  cases h <;> rfl

theorem Write.host_lastRx (h : Write (.host i) u v) (hi : i ≠ .init) : v.lastRx = u.lastRx := by
  cases h with
  | clearFlags => exact absurd rfl hi
  | _ => rfl

theorem Write.host_waitCnt (h : Write (.host i) u v) (hinit : i ≠ .init) (hpoll : i ≠ .waitIdlePoll) :
    v.waitCnt = u.waitCnt := by
  cases h with
  | clearFlags => exact absurd rfl hinit
  | setWaitCnt => exact absurd rfl hpoll
  | _ => rfl

theorem Write.host_txq (h : Write (.host i) u v) (happend : ∀ ds, i ≠ .append ds) (hsend : ¬ SendsNext i) :
    v.txq = u.txq := by
  cases h with
  | enqueue => exact absurd rfl (happend _)
  | compact hi => exact absurd hi hsend
  | _ => rfl

theorem Write.host_txqCount (h : Write (.host i) u v) (happend : ∀ ds, i ≠ .append ds)
    (hsend : ¬ SendsNext i) (hinit : i ≠ .init) : v.txqCount = u.txqCount := by
  cases h with
  | enqueue => exact absurd rfl (happend _)
  | compact hi => exact absurd hi hsend
  | clearFlags => exact absurd rfl hinit
  | _ => rfl

/-- R150: INIT keeps TXQ_COUNT, or sets it to 0 under INIT_CLEARS_TXQ. -/
theorem Write.init_txqCount (h : Write (.host .init) u v) :
    v.txqCount = u.txqCount ∨ (u.cfg.initClearsTxq = true ∧ v.txqCount = 0) := by
  cases h with
  | clearFlags =>
    rw [clearFlags_txqCount]
    split
    · next hc => exact .inr ⟨hc, rfl⟩
    · exact .inl rfl
  | compact hi => rcases hi with hi | hi <;> cases hi
  | _ => exact .inl rfl

theorem Ends.init_txqCount (h : Ends (.host .init) s t) :
    t.txqCount = s.txqCount ∨ (s.cfg.initClearsTxq = true ∧ t.txqCount = 0) := by
  refine (h.preserves (P := fun u => u.cfg = s.cfg ∧
    (u.txqCount = s.txqCount ∨ (s.cfg.initClearsTxq = true ∧ u.txqCount = 0))) ?_ ⟨rfl, .inl rfl⟩
    (fun _ _ hu => hu) (fun _ hu => hu)).2
  rintro u v hw ⟨hcfg, hu⟩
  refine ⟨hw.cfg.trans hcfg, ?_⟩
  rcases hw.init_txqCount with hsame | ⟨hclears, hzero⟩
  · rwa [hsame]
  · exact .inr ⟨hcfg ▸ hclears, hzero⟩

/-! ### The ends of the host commands -/

theorem Writes.bus (h : Writes a s u) (hb : BusOnly u v) : Writes a s v := by
  obtain ⟨new, p, q, r, w, rfl⟩ := hb
  exact h.write (.bus new p q r w)

theorem BusOnly.irqOnAir (hb : BusOnly u v) (hu : IrqOnAir u) : IrqOnAir v := by
  obtain ⟨_, _, _, _, _, rfl⟩ := hb
  exact hu

theorem BusOnly.irqEn (hb : BusOnly u v) : v.irqEn = u.irqEn := by
  obtain ⟨_, _, _, _, _, rfl⟩ := hb; rfl

theorem BusOnly.linkState (hb : BusOnly u v) : v.linkState = u.linkState := by
  obtain ⟨_, _, _, _, _, rfl⟩ := hb; rfl

theorem IrqOnAir.of_disarmed (h : u.irqEn = false) : IrqOnAir u := by
  intro he; rw [h] at he; cases he

/-- A command that returns its result with its registers written. -/
theorem Ends.replied (h : Writes (.host i) s u) (code : ResultCode) (value : Word32)
    (onAir : IrqOnAir s → IrqOnAir u) : Ends (.host i) s (reply i code value u) :=
  .settled (h.write (.reply code value)) onAir

/-- A command turned away. -/
theorem Ends.turnedAway (code : ResultCode) (value : Word32) : Ends (.host i) s (reply i code value s) :=
  .replied .refl code value id

/-- R241: a command that faults. -/
theorem Ends.replyFaulted (h : Writes (.host i) s u) (code : ResultCode) (c : FaultCause) :
    Ends (.host i) s (reply i code 0 (faultAction c u)) :=
  .faulted (h.write (.reply code 0)) c

/-- R148, R121: a command cut off at a ready-flag wait, in either way. -/
theorem Ends.cut (h : Writes (.host i) s u) {p q : Prop}
    (ht : (p ∧ t = reply i .busTimeout 0 (faultAction .busTimeout u)) ∨ (q ∧ t = hang u)) :
    Ends (.host i) s t := by
  rcases ht with ⟨-, rfl⟩ | ⟨-, rfl⟩
  · exact .replyFaulted h _ _
  · exact .hung h

theorem CutOff.ends (h : CutOff i v t) (hv : Writes (.host i) s v) : Ends (.host i) s t := by
  obtain ⟨u, hu, ht⟩ := h
  exact .cut (hv.bus hu) ht

theorem execInit_ends (h : execInit s = .next t) : Ends (.host .init) s t := by
  have cleared : Writes (.host .init) s (clearFlags s) := .single .clearFlags
  rcases execInit_next h with h | h | ⟨u, hu, rfl⟩
  · exact h.ends .refl
  · exact h.ends cleared
  · exact .replied ((cleared.bus hu).write .setInitDone) _ _ fun _ => .of_disarmed hu.irqEn

theorem execEnterListen_ends (h : execEnterListen s = .next t) : Ends (.host .enterListen) s t := by
  have armed : Writes (.host .enterListen) s (arm s) := .single (.arm (.inl rfl))
  rcases execEnterListen_next h with ⟨code, rfl, -⟩ | ⟨-, hl, h | ⟨u, hu, rfl⟩⟩
  · exact .turnedAway _ _
  · exact h.ends armed
  · exact .replied ((armed.bus hu).write (.listen (hu.linkState.trans hl))) _ _ fun _ _ => .inl rfl

theorem execExitListen_ends (h : execExitListen s = .next t) : Ends (.host .exitListen) s t := by
  have disarmed : Writes (.host .exitListen) s (disarm s) := .single .disarm
  rcases execExitListen_next h with ⟨code, rfl, -⟩ | ⟨-, hl, h | ⟨u, hu, rfl⟩⟩
  · exact .turnedAway _ _
  · exact h.ends disarmed
  · exact .replied ((disarmed.bus hu).write (.leave (.inl (hu.linkState.trans hl)))) _ _
      fun _ => .of_disarmed hu.irqEn

theorem Writes.leftListening (h : Writes a s u) : Writes a s (leftListening u) := by
  unfold Machine.leftListening
  split
  · next hl => exact (h.write .disarm).write (.leave (.inl hl))
  · exact h

/-- R157: the interrupt is armed, Listening left. -/
theorem Writes.armTx (hi : Transmits i) (h : Writes (.host i) s u) :
    Writes (.host i) s (Machine.arm (Machine.leftListening u)) :=
  h.leftListening.write (.arm (.inr hi))

/-- R157: a transmission start that is cut off. -/
theorem Writes.txCut (hi : Transmits i) (h : Writes (.host i) s u) (hc : TxCut u v) :
    Writes (.host i) s v := by
  rcases hc with ⟨-, hb⟩ | hb
  · exact (h.write .disarm).bus hb
  · exact (h.armTx hi).bus hb

/-- R157: a transmission start that is not. -/
theorem Ends.transmitting (hi : Transmits i) (h : Writes (.host i) s u)
    (hb : BusOnly (arm (leftListening u)) v) (value : Word32) :
    Ends (.host i) s (reply i .ok value (setLink .transmitting v)) :=
  .replied (((h.armTx hi).bus hb).write (.transmit hi)) _ _ fun _ _ => .inr rfl

theorem execBeginTx_ends {ds : List Byte} (h : execBeginTx ds s = .next t) :
    Ends (.host (.beginTx ds)) s t := by
  have hi : Transmits (.beginTx ds) := .inl ⟨ds, rfl⟩
  rcases execBeginTx_next h with ⟨code, rfl, -⟩ | ⟨-, -, ⟨u, hu, ht⟩ | ⟨u, hu, rfl⟩⟩
  · exact .turnedAway _ _
  · exact .cut (Writes.txCut hi .refl hu) ht
  · exact .transmitting hi .refl hu _

theorem execAppend_ends {ds : List Byte} (h : execAppend ds s = .next t) :
    Ends (.host (.append ds)) s t := by
  unfold execAppend at h
  split at h <;> cases h
  · exact .turnedAway _ _
  · next hq =>
    rw [queueLacks_iff, Nat.not_lt] at hq
    exact .replied (.single (.enqueue ds hq)) _ _ id

theorem sendNext_ends {pick : State → Option Nat} (hi : SendsNext i)
    (h : ifInitialized i s (sendNext i pick) = .next t) : Ends (.host i) s t := by
  rcases ifInitialized_next h with ⟨-, rfl⟩ | ⟨-, h⟩
  · exact .turnedAway _ _
  have compacted (len : Nat) : Writes (.host i) s (compact len s) := .single (.compact hi len)
  rcases sendNext_next h with rfl | ⟨-, -, -, len, -, ⟨u, hu, ht⟩ | ⟨u, hu, rfl⟩⟩
  · exact .turnedAway _ _
  · exact .cut ((compacted len).txCut (.inr hi) hu) ht
  · exact .transmitting (.inr hi) (compacted len) hu _

/-- R160: a count that the poll writes. -/
theorem Writes.setWaitCnt {w : Byte} (hb : BusOnly s u) (hw : w.toNat ≤ s.cfg.waitCap) :
    Writes (.host .waitIdlePoll) s (setWaitCnt w u) :=
  (Writes.bus .refl hb).write (.setWaitCnt w (hb.cfg ▸ hw))

theorem execWaitIdlePoll_ends (h : execWaitIdlePoll s = .next t) : Ends (.host .waitIdlePoll) s t := by
  rcases execWaitIdlePoll_next h with rfl | ⟨-, h | ⟨u, st, hu, rfl | ⟨-, rfl⟩ | ⟨hc, rfl⟩⟩⟩
  · exact .turnedAway _ _
  · exact h.ends .refl
  · exact .replied (.setWaitCnt hu (Nat.zero_le _)) _ _ hu.irqOnAir
  · exact .replyFaulted (.setWaitCnt hu (Nat.zero_le _)) _ _
  · have hw : (s.waitCnt + 1).toNat ≤ s.cfg.waitCap := by
      rw [BitVec.toNat_add]
      exact (Nat.mod_le _ _).trans hc.le
    exact .replied (.setWaitCnt hu hw) _ _ hu.irqOnAir

theorem execHost_ends (hp : i.port = .host) (h : exec i s = .next t) : Ends (.host i) s t := by
  cases i with
  | init => exact execInit_ends h
  | enterListen => exact execEnterListen_ends h
  | exitListen => exact execExitListen_ends h
  | beginTx ds => exact execBeginTx_ends h
  | append ds => exact execAppend_ends h
  | sendNextFull => exact sendNext_ends (.inl rfl) h
  | sendNextForce => exact sendNext_ends (.inr rfl) h
  | waitIdlePoll => exact execWaitIdlePoll_ends h
  | readStatus => cases h; exact .turnedAway _ _
  | illegalOpcode op => cases h; exact .turnedAway _ _
  | _ => cases hp

/-! ### The ends of the bus instructions -/

theorem strobeTable_port {c : Byte} (h : strobeTable.lookup c = some i) : i.port = .bus := by
  have entries : ∀ e ∈ strobeTable, e.2.port = .bus := by decide
  obtain ⟨l₁, l₂, hl, -⟩ := List.lookup_eq_some_iff.1 h
  exact entries (c, i) (by simp [hl])

theorem takeCounted_instr {f : List Byte → Instr} {bytes left : List Byte}
    (h : takeCounted f bytes = .instr i left) : ∃ ds, i = f ds := by
  unfold takeCounted at h
  split at h
  · cases h
  · split at h <;> cases h
    exact ⟨_, rfl⟩

theorem takeByte_instr {f : Byte → Instr} {bytes left : List Byte}
    (h : takeByte f bytes = .instr i left) : ∃ b, i = f b := by
  unfold takeByte at h
  split at h <;> cases h
  exact ⟨_, rfl⟩

/-- R100 to R108: what the dispatcher's port decodes is a bus instruction. -/
theorem decodeBus_port {bytes left : List Byte} (h : decodeBus bytes = .instr i left) :
    i.port = .bus := by
  unfold decodeBus at h
  split at h
  · cases h
  split at h
  · next hj => cases h; exact strobeTable_port hj
  dsimp only at h
  split at h
  · split at h <;> obtain ⟨_, rfl⟩ := takeByte_instr h <;> rfl
  · split at h
    · obtain ⟨_, rfl⟩ := takeCounted_instr h; rfl
    · split at h <;> obtain ⟨_, rfl⟩ := takeCounted_instr h <;> rfl
  · split at h <;> cases h
    rfl
  · split at h
    · cases h; rfl
    · split at h <;> obtain ⟨_, rfl⟩ := takeByte_instr h <;> rfl

theorem execBus_ends (hp : i.port = .bus) (h : exec i s = .next t) : Ends .dispatcher s t := by
  obtain ⟨f, hf, he⟩ := exec_busCall hp s
  cases he.symm.trans h
  cases f with
  | ok r u => exact .settled ((Writes.bus .refl hf).write (.callReturn r)) hf.irqOnAir
  | raised c u => exact .faulted ((Writes.bus .refl hf.1).write (.callReturn (.faulted c))) c
  | hung u => exact .hung (.bus .refl hf.1)

/-! ### The ends of the Handler -/

theorem parserFault_ends (c : FaultCause) (h : Writes .handler s u) :
    Ends .handler s (parserFault c u) := by
  unfold parserFault
  split
  · exact .faulted (h.write (.setLastRx _)) c
  · exact .faulted h c

theorem Writes.deliver (n : Nat) (h : Writes .handler s u) : Writes .handler s (deliver n u) := by
  rcases deliver_cases n u with ⟨-, hd⟩ | ⟨-, hd⟩ <;> rw [hd]
  · exact (h.write .tookRoom).write (.setLastRx _)
  · exact ((h.write .tookRoom).write (.toSink _)).write (.setLastRx _)

theorem handlerListening_ends (hl : u.linkState = .listening) (h : Writes .handler s u) :
    Ends .handler s (handlerListening u) := by
  have drained {v} (hv : BusOnly (setLink .idle u) v) : Writes .handler s v :=
    (h.write (.leave (.inl hl))).bus hv
  rcases handlerListening_cases u with
    ⟨v, hv, ⟨-, he⟩ | ⟨c, -, he⟩⟩ | ⟨v, bs, hv, -, hb, he | he⟩ <;> rw [he]
  · exact .hung (drained hv)
  · exact parserFault_ends c (drained hv)
  all_goals have stored : Writes .handler s _ := (drained hv).write (.storeFrame bs (hv.cfg ▸ hb))
  · exact parserFault_ends _ stored
  · exact .settled ((stored.deliver bs.length).write .disarm) fun _ => .of_disarmed rfl

theorem handlerStep_ends (s : State) : Ends .handler s (handlerStep s) := by
  have entered : Writes .handler s (handlerEntry s) := .single .handlerEntry
  cases hl : s.linkState with
  | listening => simp only [handlerStep, hl]; exact handlerListening_ends hl entered
  | transmitting =>
    simp only [handlerStep, hl]
    exact .settled ((entered.write .disarm).write (.leave (.inr hl))) fun _ => .of_disarmed rfl
  | idle | fault =>
    simp only [handlerStep, hl]
    exact .settled (entered.write .disarm) fun _ => .of_disarmed rfl

/-! ### The ends of a step -/

/-- When an agent's transition is the step's. -/
def Takes (s : State) : Agent → Prop
  | .host i => s.runsHost i
  | .dispatcher => s.openBus = true
  | .handler => s.hung = false ∧ (s.inputs = [] ∨ ∃ rest, s.inputs = .handler :: rest) ∧
      s.irqEn = true ∧ s.irqPend = true
  | .fallingEdge => ∃ rest, s.inputs = .lineFall :: rest
  | .nobody => True

theorem runsHost_transmits (hi : Transmits i) (h : s.runsHost i) :
    (∃ ds, s.runsHost (.beginTx ds)) ∨ s.runsHost .sendNextFull ∨ s.runsHost .sendNextForce := by
  rcases hi with ⟨ds, rfl⟩ | rfl | rfl
  · exact .inl ⟨ds, h⟩
  · exact .inr (.inl h)
  · exact .inr (.inr h)

theorem hungTurn_ends (s : State) :
    ∃ a l, Takes s a ∧ Ends a { s with inputs := l } (hungTurn s) := by
  unfold hungTurn
  split
  · next rest hs => exact ⟨.fallingEdge, _, ⟨rest, hs⟩, .settled (.single .latchEdge) id⟩
  · exact ⟨.nobody, _, trivial, .settled .refl id⟩
  · exact ⟨.nobody, s.inputs, trivial, .settled .refl id⟩

theorem handlerTurn_ends {l : List Input} (hh : s.hung = false)
    (hs : s.inputs = [] ∨ ∃ rest, s.inputs = .handler :: rest) :
    ∃ a l', Takes s a ∧ Ends a { s with inputs := l' } (handlerTurn { s with inputs := l }) := by
  rw [handlerTurn_eq]
  split
  · next hirq => exact ⟨.handler, l, ⟨hh, hs, hirq⟩, handlerStep_ends _⟩
  · exact ⟨.nobody, l, trivial, .settled .refl id⟩

/-- Every step is a transition of one agent, after the schedule has moved on. -/
theorem step_ends (h : step s = .next t) : ∃ a l, Takes s a ∧ Ends a { s with inputs := l } t := by
  obtain ⟨-, ⟨-, rfl⟩ | ⟨hh, ⟨hs, rfl⟩ | ⟨rest, hs, rfl⟩ | ⟨rest, hs, rfl⟩ | ⟨rest, hs, rfl⟩ |
    ⟨bytes, rest, i, left, hs, hd, h⟩ | ⟨bytes, rest, i, left, hs, ho, hd, h⟩⟩⟩ := step_next h
  case inl => exact hungTurn_ends s
  · exact handlerTurn_ends (l := s.inputs) hh (.inl hs)
  · exact handlerTurn_ends hh (.inr ⟨rest, hs⟩)
  · exact ⟨.fallingEdge, _, ⟨rest, hs⟩, .settled (.single .latchEdge) id⟩
  · exact ⟨.nobody, _, trivial, .settled .refl id⟩
  · exact ⟨.host i, _, ⟨bytes, rest, left, hs, hd⟩, execHost_ends (decodeHost_port hd) h⟩
  · exact ⟨.dispatcher, _, ho, execBus_ends (decodeBus_port hd) h⟩

/-! ### The invariant

R50 (a) speaks of states between transitions, so it is not claimed of a hung one (log 7): `(hang u).Inv` is
the invariant without it, which each single write keeps. -/

theorem inv_iff (s : State) : s.Inv ↔ (hang s).Inv ∧ (s.hung = false → IrqOnAir s) :=
  ⟨fun h => ⟨{ h with armed := nofun }, h.armed⟩, fun ⟨h, ha⟩ => { h with armed := ha }⟩

/-- R210: the queue after the bytes of an APPEND that fits. -/
theorem enqueue_inv {ds : List Byte} (h : (hang u).Inv) (hcap : u.cfg.txqCap ≤ 255)
    (hd : u.txqCount.toNat + ds.length ≤ u.cfg.txqCap) : (hang (enqueue ds u)).Inv := by
  have hcount : (enqueue ds u).txqCount.toNat = u.txqCount.toNat + ds.length := by
    rw [enqueue_txqCount, BitVec.toNat_add, BitVec.toNat_ofNat]
    omega
  refine { h with
    armed := nofun
    countFits := hcount.le.trans hd
    txqForm := memWrite_wf h.txqForm _ _
    txqExtent := fun c hc => ?_
    txqWritten := fun k hk => ?_ }
  · rcases mem_memWrite _ hc with ⟨-, hlt⟩ | hold
    · exact hlt.trans_le hd
    · exact h.txqExtent c hold
  · replace hk : k < u.txqCount.toNat + ds.length := hcount ▸ hk
    show (memGet? (memWrite u.txq u.txqCount.toNat ds) k).isSome = true
    rw [memGet?_memWrite]
    split
    · next hin => simp [show k - u.txqCount.toNat < ds.length by omega]
    · next hout => exact h.txqWritten k (show k < u.txqCount.toNat by omega)

/-- R215: the queue after `Compact`, every byte that is left written anew. -/
theorem compact_inv (h : (hang u).Inv) (len : Nat) : (hang (compact len u)).Inv := by
  have hcount := compact_count u len
  have hfits : u.txqCount.toNat ≤ u.cfg.txqCap := h.countFits
  refine { h with
    armed := nofun
    countFits := hcount.le.trans ((Nat.sub_le _ _).trans hfits)
    txqForm := memForget_wf (memWrite_wf h.txqForm _ _) _
    txqExtent := fun c hc => ?_
    txqWritten := fun k hk => ?_ }
  · have hlt := (mem_memForget _ hc).2
    show c.1 < u.cfg.txqCap
    omega
  · replace hk : k < u.txqCount.toNat - len := hcount ▸ hk
    show (memGet? (compact len u).txq k).isSome = true
    rw [compact_txq, memGet?_memForget, if_pos hk, memGet?_memWrite]
    simp [hk]

/-- R194: RXBUF after a frame that fits. -/
theorem storeFrame_inv {bs : List Byte} (h : (hang u).Inv) (hb : bs.length ≤ u.cfg.rxCap) :
    (hang (storeFrame bs u)).Inv := by
  refine { h with armed := nofun, rxbufForm := memWrite_wf h.rxbufForm _ _, rxbufExtent := fun c hc => ?_ }
  rcases mem_memWrite _ hc with ⟨-, hlt⟩ | hold
  · show c.1 < u.cfg.rxCap
    omega
  · exact h.rxbufExtent c hold

/-- R150: INIT clears the flags, and the queue's count or not. -/
theorem clearFlags_inv (h : (hang u).Inv) : (hang (clearFlags u)).Inv := by
  have hcount : (clearFlags u).txqCount.toNat ≤ u.txqCount.toNat := by
    rw [clearFlags_txqCount]
    split
    · exact Nat.zero_le _
    · exact le_rfl
  exact { h with
    armed := nofun
    countFits := hcount.trans h.countFits
    causeNone := iff_of_true rfl rfl
    faultState := nofun
    pollsFit := Nat.zero_le _
    txqWritten := fun k hk => h.txqWritten k (hk.trans_le hcount) }

theorem Write.inv (hw : Write a u v) (hcfg : u.cfg.wf = true) (h : (hang u).Inv) : (hang v).Inv := by
  cases hw with
  | clearFlags => exact clearFlags_inv h
  | listen | leave | transmit => exact { h with armed := nofun, faultState := nofun }
  | setWaitCnt w hv => exact { h with armed := nofun, pollsFit := hv }
  | enqueue ds hd =>
    have hcap := Params_wf_bounds hcfg
    exact enqueue_inv h (by omega) hd
  | compact _ len => exact compact_inv h len
  | storeFrame bs hb => exact storeFrame_inv h hb
  | _ => exact { h with armed := nofun }

/-- R240: the fault action keeps the first cause. -/
theorem faultAction_inv (c : FaultCause) (h : (hang u).Inv) : (faultAction c u).Inv := by
  refine { h with armed := fun _ => nofun, faultState := fun _ => rfl, causeNone := iff_of_false nofun ?_ }
  rw [faultAction_faultCause]
  split
  · next hf => exact fun hn => Bool.eq_false_iff.1 (h.causeNone.2 hn) hf
  · exact nofun

theorem Writes.inv (hw : Writes a s u) (hcfg : s.cfg.wf = true) (h : (hang s).Inv) : (hang u).Inv :=
  (hw.preserves (P := fun u => u.cfg.wf = true ∧ (hang u).Inv)
    (fun _ _ hv ⟨hc, hu⟩ => ⟨hv.cfg ▸ hc, hv.inv hc hu⟩) ⟨hcfg, h⟩).2

/-- R50: a transition keeps the invariant. -/
theorem Ends.inv (he : Ends a s t) (hcfg : s.cfg.wf = true) (h : s.Inv) : t.Inv := by
  obtain ⟨hcore, hair⟩ := (inv_iff s).1 h
  cases he with
  | settled path onAir =>
    have hhung : t.hung = s.hung := path.preserves (P := fun u => u.hung = s.hung)
      (fun _ _ hv hu => hv.hung.trans hu) rfl
    exact (inv_iff t).2 ⟨path.inv hcfg hcore, fun ht => onAir (hair (hhung ▸ ht))⟩
  | faulted path c => exact faultAction_inv c (path.inv hcfg hcore)
  | hung path => exact path.inv hcfg hcore

theorem powerOn_inv (c : Config.Params) : (State.powerOn c).Inv where
  armed := nofun
  countFits := Nat.zero_le _
  causeNone := iff_of_true rfl rfl
  faultState := nofun
  pollsFit := Nat.zero_le _
  txqForm := .nil
  txqExtent := nofun
  txqWritten := nofun
  rxbufForm := .nil
  rxbufExtent := nofun

/-! ### Delivery -/

theorem rxPayload_length {frame : List Byte} {n : Nat} (hl : frame.length = n) :
    (rxPayload frame n).length = n - 3 := by
  simp only [rxPayload, slice, List.length_take, List.length_drop]
  omega

theorem rxFrame_length (s : State) (n : Nat) : (rxFrame s n).length = n := memRead_length _ _ _ _

/-- R197: what a step that delivers has done. -/
def Delivers (s t : State) : Prop :=
  t.lastRx = some .ok ∧ t.linkState = .idle ∧
    ∃ d, t.sinkLog = s.sinkLog ++ [d] ∧ 1 ≤ d.payload.length ∧ d.payload.length + 3 ≤ s.cfg.rxCap

theorem BusOnly.sinkLog (hb : BusOnly u v) : v.sinkLog = u.sinkLog := by
  obtain ⟨_, _, _, _, _, rfl⟩ := hb; rfl

theorem parserFault_sinkLog (c : FaultCause) (s : State) : (parserFault c s).sinkLog = s.sinkLog := by
  unfold parserFault
  split <;> rfl

/-- R191, R197: the handler in Listening delivers one frame or none. -/
theorem handlerListening_sinkLog (s : State) :
    (handlerListening s).sinkLog = s.sinkLog ∨ Delivers s (handlerListening s) := by
  rcases handlerListening_cases s with
    ⟨u, hu, ⟨-, he⟩ | ⟨c, -, he⟩⟩ | ⟨u, bs, hu, h4, hcap, he | he⟩ <;> rw [he]
  · exact .inl hu.sinkLog
  · exact .inl ((parserFault_sinkLog c u).trans hu.sinkLog)
  · exact .inl ((parserFault_sinkLog _ _).trans hu.sinkLog)
  · rcases deliver_cases bs.length (storeFrame bs u) with ⟨-, hd⟩ | ⟨-, hd⟩ <;> rw [hd]
    · exact .inl hu.sinkLog
    · have hpay := rxPayload_length (rxFrame_length (storeFrame bs u) bs.length)
      refine .inr ⟨rfl, hu.linkState, _, congrArg (· ++ _) hu.sinkLog, ?_, ?_⟩ <;> dsimp only <;> omega

/-- R250: the Handler's turn delivers from Listening alone. -/
theorem handlerTurn_sinkLog (h : (handlerTurn s).sinkLog ≠ s.sinkLog) :
    s.linkState = .listening ∧ s.irqEn = true ∧ s.irqPend = true ∧ Delivers s (handlerTurn s) := by
  rw [handlerTurn_eq] at h ⊢
  split at h
  · next hirq =>
    rw [if_pos hirq]
    cases hl : s.linkState with
    | listening =>
      simp only [handlerStep, hl] at h ⊢
      exact ⟨trivial, hirq.1, hirq.2, (handlerListening_sinkLog (handlerEntry s)).resolve_left h⟩
    | transmitting | idle | fault => simp only [handlerStep, hl] at h; exact absurd rfl h
  · exact absurd rfl h

theorem hungTurn_sinkLog (s : State) : (hungTurn s).sinkLog = s.sinkLog := by
  unfold hungTurn
  split <;> rfl

/-- Neither a host command nor a bus instruction delivers. -/
theorem exec_sinkLog (h : exec i s = .next t) : t.sinkLog = s.sinkLog := by
  cases hp : i.port with
  | host => exact (execHost_ends hp h).keeps fun _ _ hw => hw.sinkLog nofun
  | bus => exact (execBus_ends hp h).keeps fun _ _ hw => hw.sinkLog nofun

/-! ### The model's own stop -/

theorem ifInitialized_fault {f : Fault} {body : State → Machine.Outcome}
    (h : ifInitialized i s body = .fault f) : body s = .fault f := by
  unfold ifInitialized at h
  split at h
  · exact h
  · cases h

theorem sendNext_fault {f : Fault} {pick : State → Option Nat} (h : sendNext i pick s = .fault f) :
    s.cfg.txqCap < s.txqCount.toNat := by
  unfold sendNext at h
  split at h
  · cases h
  split at h
  · cases h
  split at h
  · split at h <;> cases h
  · next hc => rwa [countInQueue_iff, Nat.not_le] at hc

/-- R74: only a count outside TXQ faults (log 12). -/
theorem exec_fault {f : Fault} (h : exec i s = .fault f) : s.cfg.txqCap < s.txqCount.toNat := by
  cases hp : i.port with
  | bus =>
    obtain ⟨g, -, he⟩ := exec_busCall hp s
    rw [he] at h
    cases h
  | host =>
    cases i with
    | sendNextFull | sendNextForce => exact sendNext_fault (ifInitialized_fault h)
    | init | readStatus | illegalOpcode => cases h
    | append =>
      simp only [exec, execAppend] at h
      split at h <;> cases h
    | waitIdlePoll =>
      unfold exec execWaitIdlePoll at h
      cases ifInitialized_fault h
    | enterListen | exitListen =>
      unfold exec at h
      unfold execEnterListen execExitListen at h
      replace h := ifInitialized_fault h
      split at h <;> cases h
    | beginTx =>
      unfold exec execBeginTx at h
      replace h := ifInitialized_fault h
      split at h
      · cases h
      · split at h <;> cases h
    | _ => cases hp

theorem step_fault {f : Fault} (h : step s = .fault f) : s.cfg.txqCap < s.txqCount.toNat := by
  unfold step at h
  split at h
  · split at h
    · cases h
    split at h
    case h_5 => -- a host command
      split at h
      · exact (exec_fault h :)
      · cases h
    case h_6 => -- a dispatcher call
      split at h
      · split at h
        · exact (exec_fault h :)
        · cases h
      · cases h
    all_goals cases h
  · cases h

/-! ### The status word -/

/-- R45: the fields of a word put together as the status word is, from bit 31 down. The width is left as a sum,
as the laws of appended words have it. -/
theorem appended_fields (wc n : BitVec 8) (lr fc : BitVec 4) (b7 b6 b5 b4 b3 b2 : Bool) (l : BitVec 2) :
    let w : BitVec (8 + 8 + 4 + 4 + 1 + 1 + 1 + 1 + 1 + 1 + 2) :=
      wc ++ n ++ lr ++ fc ++ BitVec.ofBool b7 ++ BitVec.ofBool b6 ++ BitVec.ofBool b5 ++
        BitVec.ofBool b4 ++ BitVec.ofBool b3 ++ BitVec.ofBool b2 ++ l
    (w.extractLsb' 0 2 = l ∧ w.extractLsb' 8 4 = fc ∧ w.extractLsb' 12 4 = lr ∧
      w.extractLsb' 16 8 = n ∧ w.extractLsb' 24 8 = wc) ∧
    w.getLsbD 2 = b2 ∧ w.getLsbD 3 = b3 ∧ w.getLsbD 4 = b4 ∧ w.getLsbD 5 = b5 ∧ w.getLsbD 6 = b6 ∧
    w.getLsbD 7 = b7 := by
  constructor
  · refine ⟨?_, ?_, ?_, ?_, ?_⟩ <;>
      simp (disch := decide) only [BitVec.extractLsb'_append_eq_of_add_le,
        BitVec.extractLsb'_append_eq_of_le, BitVec.extractLsb'_eq_self, Nat.reduceSub, -Nat.reduceAdd]
  · refine ⟨?_, ?_, ?_, ?_, ?_, ?_⟩ <;>
      simp only [BitVec.getLsbD_append, BitVec.getLsbD_ofBool, Nat.reduceLT, Nat.reduceSub, ↓reduceIte,
        decide_true, Bool.true_and, -Nat.reduceAdd]

theorem statusWord_powerOn (c : Config.Params) : statusWord (State.powerOn c) = 0 := by
  simp only [statusWord, State.powerOn, lastRxCode, faultCauseCode, rxFlag, txFlag, LinkState.code]
  decide

/-! ### The configuration -/

theorem step_cfg (h : step s = .next t) : t.cfg = s.cfg := by
  obtain ⟨a, l, -, he⟩ := step_ends h
  exact he.keeps fun _ _ hw => hw.cfg

end

/-! ### The obligations -/

/-- Settles O49, by each single write's part of the invariant and clause (a) of it at the end. -/
theorem everyStepKeepsTheInvariant : Obligations.EveryStepKeepsTheInvariant := by
  intro s t h hstep
  obtain ⟨a, l, -, he⟩ := step_ends hstep
  exact he.inv (step_next hstep).1 { h with }

/-- Settles O19, by the bus primitive that the instruction runs. -/
theorem busInstructionFrame : Obligations.BusInstructionFrame := by
  intro i s hp
  obtain ⟨f, hf, he⟩ := exec_busCall hp s
  cases f with
  | ok r u => exact ⟨_, u, he, hf, .inl ⟨r, rfl⟩⟩
  | raised c u =>
    obtain ⟨hb, rfl, hcap⟩ := hf
    exact ⟨_, u, he, hb, .inr (.inl ⟨hcap, rfl⟩)⟩
  | hung u => exact ⟨_, u, he, hf.1, .inr (.inr ⟨hf.2, rfl⟩)⟩

/-- Settles O32, by the fields of the status word and the codes of the named values. -/
theorem readStatusReturnsTheRegisters : Obligations.ReadStatusReturnsTheRegisters := by
  intro s
  obtain ⟨⟨hlink, hcause, hrx, hcount, hwait⟩, hfault, hen, hpend, htx, hrxf, hinit⟩ :=
    appended_fields s.waitCnt s.txqCount (lastRxCode s.lastRx) (faultCauseCode s.faultCause) s.initDone
      (rxFlag s) (txFlag s) s.irqPend s.irqEn s.fault s.linkState.code
  refine ⟨statusWord s, rfl, hlink.trans ?_, hfault, hen, hpend, htx, hrxf, hinit, hcause.trans ?_,
    hrx.trans ?_, hcount, hwait⟩
  · cases s.linkState <;> rfl
  · rcases s.faultCause with _ | c
    · rfl
    · cases c <;> rfl
  · rcases s.lastRx with _ | o
    · rfl
    · cases o <;> rfl

/-- Settles O50, by the count that the invariant holds inside TXQ. -/
theorem noStepFaultsUnderTheInvariant : Obligations.NoStepFaultsUnderTheInvariant :=
  fun _ h _ hf => absurd h.countFits (step_fault hf).not_ge

/-- Settles O51. -/
theorem configurationIsNeverWritten : Obligations.ConfigurationIsNeverWritten := fun _ _ => step_cfg

/-- Settles O53, by the one write of FAULT and FAULT_CAUSE, INIT's; the fault action keeps a cause that
is set. -/
theorem onlyInitClearsFault : Obligations.OnlyInitClearsFault := by
  intro s t h hfault hchanged
  obtain ⟨a, l, ha, he⟩ := step_ends h
  by_contra hinit
  have hne : a ≠ .host .init := by rintro rfl; exact hinit ha
  obtain ⟨hf, hc⟩ : t.fault = true ∧ t.faultCause = s.faultCause :=
    he.preserves (P := fun u => u.fault = true ∧ u.faultCause = s.faultCause)
      (fun _ _ hw ⟨hf, hc⟩ => ⟨(hw.fault hne).1.trans hf, (hw.fault hne).2.trans hc⟩) ⟨hfault, rfl⟩
      (fun _ _ ⟨hf, hc⟩ => ⟨rfl, by rw [faultAction_faultCause, if_pos hf, hc]⟩) (fun _ hu => hu)
  rcases hchanged with h | h
  · cases hf.symm.trans h
  · exact h hc

/-- Settles O54: no write but INIT's and a transmission's leaves the Fault state, none enters it, and the
fault action that enters it sets FAULT and clears IRQ_EN. -/
theorem faultStateIsLeftOnlyByInitOrTransmission :
    Obligations.FaultStateIsLeftOnlyByInitOrTransmission := by
  intro s t h
  obtain ⟨a, l, ha, he⟩ := step_ends h
  refine ⟨fun hs ht => ?_, fun hs ht => ?_⟩
  · by_contra hnone
    have hinit : a ≠ .host .init := by rintro rfl; exact hnone (.inl ha)
    have htx : ∀ i, Transmits i → a ≠ .host i := by
      rintro i hi rfl
      exact hnone (.inr (runsHost_transmits hi ha))
    exact ht (he.preserves (P := fun u => u.linkState = .fault)
      (fun _ _ hw => hw.stays_fault hinit htx) hs (fun _ _ _ => rfl) (fun _ hu => hu))
  · have outside {u} (path : Writes a { s with inputs := l } u) : u.linkState ≠ .fault :=
      path.preserves (P := fun u => u.linkState ≠ .fault) (fun _ _ hw => hw.not_enters_fault) hs
    cases he with
    | settled path _ => exact (outside path ht).elim
    | faulted path c => exact ⟨rfl, rfl⟩
    | hung path => exact (outside path ht).elim

/-- Settles O55, by the one write of INIT_DONE, INIT's. -/
theorem initDoneIsSetByInitAndNeverCleared : Obligations.InitDoneIsSetByInitAndNeverCleared := by
  intro s t h
  obtain ⟨a, l, ha, he⟩ := step_ends h
  refine ⟨fun hs => ?_, fun hs ht => ?_⟩
  · exact he.preserves (P := fun u => u.initDone = true) (fun _ _ hw => hw.initDone_mono) hs
      (fun _ _ hu => hu) (fun _ hu => hu)
  · by_contra hinit
    have hne : a ≠ .host .init := by rintro rfl; exact hinit ha
    have hkept : t.initDone = s.initDone := he.keeps (f := State.initDone) fun _ _ hw => hw.initDone hne
    cases (hkept.trans hs).symm.trans ht

/-- Settles O57, by the Handler's turn in Listening; no other agent's transition delivers. -/
theorem onlyTheListeningHandlerDelivers : Obligations.OnlyTheListeningHandlerDelivers := by
  intro s t h hne
  obtain ⟨-, ⟨-, rfl⟩ | ⟨hh, ⟨hs, rfl⟩ | ⟨rest, hs, rfl⟩ | ⟨rest, hs, rfl⟩ | ⟨rest, hs, rfl⟩ |
    ⟨bytes, rest, i, left, hs, hd, h⟩ | ⟨bytes, rest, i, left, hs, ho, hd, h⟩⟩⟩ := step_next h
  case inl => exact absurd (hungTurn_sinkLog s) hne
  · obtain ⟨hl, he, hp, hd⟩ := handlerTurn_sinkLog hne
    exact ⟨hh, .inl hs, hl, he, hp, hd⟩
  · obtain ⟨hl, he, hp, hd⟩ := handlerTurn_sinkLog (s := dropInput s) hne
    exact ⟨hh, .inr ⟨rest, hs⟩, hl, he, hp, hd⟩
  · exact absurd rfl hne
  · exact absurd rfl hne
  · exact absurd (exec_sinkLog h) hne
  · exact absurd (exec_sinkLog h) hne

/-- Settles O58, by what each single write of a host command leaves alone. -/
theorem hostCommandFrame : Obligations.HostCommandFrame := by
  intro i s t hp h
  have he := execHost_ends hp h
  refine ⟨he.keeps fun _ _ hw => hw.host_rxbuf, he.keeps fun _ _ hw => hw.sinkLog nofun,
    he.keeps fun _ _ hw => hw.host_inputs, he.keeps fun _ _ hw => hw.host_roomAnswers,
    he.keeps fun _ _ hw => hw.host_callReturn, fun hinit => ⟨?_, ?_⟩, fun hinit hpoll => ?_,
    fun happend hfull hforce => ⟨?_, fun hinit => ?_⟩, ?_⟩
  · exact he.keeps fun _ _ hw => hw.host_lastRx hinit
  · exact he.keeps fun _ _ hw => hw.initDone fun h => hinit (Agent.host.inj h)
  · exact he.keeps fun _ _ hw => hw.host_waitCnt hinit hpoll
  · exact he.keeps fun _ _ hw => hw.host_txq happend (not_or.2 ⟨hfull, hforce⟩)
  · exact he.keeps fun _ _ hw => hw.host_txqCount happend (not_or.2 ⟨hfull, hforce⟩) hinit
  · rintro rfl
    exact he.init_txqCount

/-- Settles O59, by the one write that sets IRQ_PEND, the falling edge's. -/
theorem onlyTheLineSetsIrqPend : Obligations.OnlyTheLineSetsIrqPend := by
  intro s t h hs ht
  obtain ⟨a, l, ha, he⟩ := step_ends h
  by_contra hline
  have hne : a ≠ .fallingEdge := by rintro rfl; exact hline ha
  have hoff : t.irqPend = false := he.preserves (P := fun u => u.irqPend = false)
    (fun _ _ hw => hw.irqPend hne) hs (fun _ _ hu => hu) (fun _ hu => hu)
  cases hoff.symm.trans ht

/-- Settles O60, by the one write that sets IRQ_EN, that of the commands that arm it. -/
theorem onlyListeningOrTransmittingArmsTheInterrupt :
    Obligations.OnlyListeningOrTransmittingArmsTheInterrupt := by
  intro s t h hs ht
  obtain ⟨a, l, ha, he⟩ := step_ends h
  by_contra hnone
  have hne : ∀ i, Arms i → a ≠ .host i := by
    rintro i hi rfl
    rcases hi with rfl | hi
    · exact hnone (.inl ha)
    · exact hnone (.inr (runsHost_transmits hi ha))
  have hoff : t.irqEn = false := he.preserves (P := fun u => u.irqEn = false)
    (fun _ _ hw => hw.irqEn hne) hs (fun _ _ _ => rfl) (fun _ hu => hu)
  cases hoff.symm.trans ht

/-- Settles O1, field by field of the power-on state. -/
theorem powerOnLeavesEveryRegisterAtItsResetValue :
    Obligations.PowerOnLeavesEveryRegisterAtItsResetValue := by
  refine ⟨rfl, rfl, rfl, fun c => ?_⟩
  exact ⟨rfl, rfl, rfl, rfl, rfl, rfl, rfl, rfl, rfl, rfl, rfl, fun _ => ⟨rfl, rfl⟩, rfl, rfl,
    statusWord_powerOn c⟩

/-- Settles O8, by the step's turn at an edge, hung or not. -/
theorem lineEdgeLatchesIrqPend : Obligations.LineEdgeLatchesIrqPend := by
  intro s rest hw
  refine ⟨fun hs => ?_, fun hs => ?_⟩ <;> cases hh : s.hung <;>
    simp [step, hungTurn, latchEdge, dropInput, hw, hh, hs]

/-- Settles O48. -/
theorem powerOnStateMeetsTheInvariant : Obligations.PowerOnStateMeetsTheInvariant :=
  ⟨powerOn_inv _, fun c _ => powerOn_inv c⟩

end Sys2Proof.Machine

/-! SUPPORT. What leaves the memory and the queue: the bytes of a result, and a queue count outside TXQ. Proofs
of the obligations of 20_memory. -/

namespace Sys2Proof.Machine

/-! ### The bytes of a word -/

/-- R71: the bytes at bits 0, 8, 16 and 24 of a word are its base-256 digits, the least significant first. -/
theorem toNat_eq_sum_bytes (w : Word32) :
    w.toNat = (w.extractLsb' 0 8).toNat + 256 * (w.extractLsb' 8 8).toNat +
      65536 * (w.extractLsb' 16 8).toNat + 16777216 * (w.extractLsb' 24 8).toNat := by
  have hw := w.isLt
  simp only [BitVec.extractLsb'_toNat, Nat.shiftRight_eq_div_pow]
  omega

/-! ### A count outside TXQ -/

/-- R149: after INIT a command does what its body does. -/
theorem ifInitialized_of_initDone {cmd : Instr} {s : State} {body : State → Outcome}
    (h : s.initDone = true) : ifInitialized cmd s body = body s := by
  rw [ifInitialized, if_pos h]

/-- R74: both forms of SEND_NEXT stop the machine before they pick how many bytes to send (log 12). -/
theorem sendNext_eq_fault {cmd : Instr} {pick : State → Option Nat} {s : State}
    (hl : s.linkState ≠ .transmitting) (hc : s.cfg.txqCap < s.txqCount.toNat) :
    sendNext cmd pick s = .fault .txqIndex := by
  have hne : s.txqCount ≠ 0 := fun h => by simp [h] at hc
  have hout : ¬ countInQueue s = true := by rwa [countInQueue_iff, Nat.not_le]
  rw [sendNext, if_neg hl, if_neg hne, if_neg hout]

/-! ### The obligations -/

/-- Settles O34, by the base-256 digits of the value. -/
theorem resultGoesOutLeastSignificantByteFirst : Obligations.ResultGoesOutLeastSignificantByteFirst :=
  fun r => ⟨_, _, _, _, _, rfl, by cases r.code <;> rfl, toNat_eq_sum_bytes r.value⟩

/-- Settles O40, by the check of the count that both forms make after INIT. -/
theorem sendNextOutsideTheQueueFaults : Obligations.SendNextOutsideTheQueueFaults := by
  intro s hinit hl hc
  constructor
  · exact (ifInitialized_of_initDone hinit).trans (sendNext_eq_fault hl hc)
  · exact (ifInitialized_of_initDone hinit).trans (sendNext_eq_fault hl hc)

end Sys2Proof.Machine

/-! SUPPORT. The decoders form by form, and a transmission whose ready flags come in time, of a given frame or
of the queue: proofs of the obligations of 30_encoding. -/

namespace Sys2Proof.Machine

/-! ### Operands -/

theorem takeCounted_cons (f : List Byte → Instr) (n : Byte) (bytes : List Byte) :
    takeCounted f (n :: bytes) =
      if n.toNat ≤ bytes.length then .instr (f (bytes.take n.toNat)) (bytes.drop n.toNat)
      else .reject .cutShort := rfl

/-- R90: what `takeCounted` reads is the counted form of its data. -/
theorem takeCounted_reads {f : List Byte → Instr} {bytes rest : List Byte} {i : Instr}
    (h : takeCounted f bytes = .instr i rest) :
    ∃ ds, i = f ds ∧ fitsCount ds = true ∧ counted ds ++ rest = bytes := by
  cases bytes with
  | nil => cases h
  | cons n bytes =>
    rw [takeCounted_cons] at h
    split at h
    · next hn =>
      cases h
      have hlen : (bytes.take n.toNat).length = n.toNat := List.length_take_of_le hn
      have hfit : n.toNat ≤ 255 := Nat.le_of_lt_succ n.isLt
      refine ⟨bytes.take n.toNat, rfl, ?_, ?_⟩
      · rw [fitsCount, hlen]; exact decide_eq_true hfit
      · rw [counted, hlen, BitVec.ofNat_toNat, BitVec.setWidth_eq, List.cons_append, List.take_append_drop]
    · cases h

theorem takeByte_reads {f : Byte → Instr} {bytes rest : List Byte} {i : Instr}
    (h : takeByte f bytes = .instr i rest) : ∃ v, i = f v ∧ v :: rest = bytes := by
  cases bytes with
  | nil => cases h
  | cons v bytes => cases h; exact ⟨v, rfl, rfl⟩

/-! ### The host decoder, by the opcode's format -/

/-- R92: an opcode of format H0. -/
theorem decodeHost_h0 {op : Byte} {i : Instr} (h : h0Table.lookup op = some i) (rest : List Byte) :
    decodeHost (op :: rest) = .instr i rest := by
  simp only [decodeHost, h]

theorem isIllegalOpcode_iff {op : Byte} : isIllegalOpcode op = true ↔ op = 0x00 ∨ 0x0A ≤ op := by
  rw [isIllegalOpcode, Bool.or_eq_true, beq_iff_eq, decide_eq_true_eq]

/-- R93: an opcode of neither format. -/
theorem decodeHost_illegalOpcode {op : Byte} (h : isIllegalOpcode op = true) (rest : List Byte) :
    decodeHost (op :: rest) = .instr (.illegalOpcode op) rest := by
  obtain ⟨hlookup, hbegin, happend⟩ := illegalOpcode_lookup op h
  simp only [decodeHost, hlookup, if_neg hbegin, if_neg happend]

/-- R92, R93: the three formats are all there are. -/
theorem opcode_cases : ∀ op : Byte,
    (h0Table.lookup op).isSome = true ∨ (op = opBeginTx ∨ op = opAppend) ∨ isIllegalOpcode op = true := by
  decide

/-- R92: an opcode of format HD. -/
theorem decodeHost_hd {op : Byte} (h : op = opBeginTx ∨ op = opAppend) :
    ∃ f, ∀ rest, decodeHost (op :: rest) = takeCounted f rest := by
  rcases h with rfl | rfl
  · exact ⟨.beginTx, fun _ => rfl⟩
  · exact ⟨.append, fun _ => rfl⟩

/-- R92, R93: every other opcode is a command of one byte. -/
theorem decodeHost_oneByte {op : Byte} (h : ¬ (op = opBeginTx ∨ op = opAppend)) (rest : List Byte) :
    ∃ i, decodeHost (op :: rest) = .instr i rest := by
  rcases opcode_cases op with hlookup | hhd | hillegal
  · obtain ⟨i, hi⟩ := Option.isSome_iff_exists.1 hlookup
    exact ⟨i, decodeHost_h0 hi rest⟩
  · exact absurd hhd h
  · exact ⟨_, decodeHost_illegalOpcode hillegal rest⟩

theorem hostLength_hd {op : Byte} (h : op = opBeginTx ∨ op = opAppend) (rest : List Byte) :
    hostLength (op :: rest) = rest.head?.map fun n => 2 + n.toNat := by
  rw [hostLength, if_pos h]

theorem hostLength_oneByte {op : Byte} (h : ¬ (op = opBeginTx ∨ op = opAppend)) (rest : List Byte) :
    hostLength (op :: rest) = some 1 := by
  rw [hostLength, if_neg h]

/-- R113: a whole command is decoded, and what is left is what follows its length. -/
theorem decodeHost_whole {bytes : List Byte} {n : Nat} (hn : hostLength bytes = some n)
    (hle : n ≤ bytes.length) : ∃ i, decodeHost bytes = .instr i (bytes.drop n) := by
  cases bytes with
  | nil => cases hn
  | cons op rest =>
    by_cases hop : op = opBeginTx ∨ op = opAppend
    · obtain ⟨f, hf⟩ := decodeHost_hd hop
      rw [hostLength_hd hop] at hn
      cases rest with
      | nil => cases hn
      | cons count rest =>
        obtain rfl : 2 + count.toNat = n := Option.some.inj hn
        have hcount : count.toNat ≤ rest.length := by simp only [List.length_cons] at hle; omega
        refine ⟨f (rest.take count.toNat), ?_⟩
        rw [hf, takeCounted_cons, if_pos hcount, Nat.add_comm 2, List.drop_succ_cons, List.drop_succ_cons]
    · rw [hostLength_oneByte hop] at hn
      cases hn
      exact decodeHost_oneByte hop rest

/-- R93: a string that ends before its count byte or before its counted data. -/
theorem decodeHost_cutShort {bytes : List Byte}
    (h : hostLength bytes = none ∨ ∃ n, hostLength bytes = some n ∧ bytes.length < n) :
    decodeHost bytes = .reject .cutShort := by
  cases bytes with
  | nil => rfl
  | cons op rest =>
    by_cases hop : op = opBeginTx ∨ op = opAppend
    · obtain ⟨f, hf⟩ := decodeHost_hd hop
      rw [hostLength_hd hop] at h
      cases rest with
      | nil => rw [hf, takeCounted]
      | cons count rest =>
        rcases h with h | ⟨n, hn, hlt⟩
        · cases h
        · obtain rfl : 2 + count.toNat = n := Option.some.inj hn
          have hcount : ¬ count.toNat ≤ rest.length := by simp only [List.length_cons] at hlt; omega
          rw [hf, takeCounted_cons, if_neg hcount]
    · simp [hostLength_oneByte hop] at h

/-- R93: bytes that are no command are refused by the step. -/
theorem step_host_reject {s : State} {bytes : List Byte} {rest : List Input} {r : Reject}
    (hw : s.cfg.wf = true) (hh : s.hung = false) (hs : s.inputs = .host bytes :: rest)
    (hd : decodeHost bytes = .reject r) : step s = .refused (refusalOf r) := by
  simp [step, hw, hh, hs, hd]

/-! ### The dispatcher's decoder, by the fields of the first byte (R100) -/

section
variable {b : Byte}

/-- R101: a strobe code. -/
theorem decodeBus_strobe {i : Instr} (h : strobeTable.lookup b = some i) (rest : List Byte) :
    decodeBus (b :: rest) = .instr i rest := by
  simp only [decodeBus, h]

/-- R105: a single write. -/
theorem decodeBus_write (hl : strobeTable.lookup b = none) (hr : readBit b = false)
    (hb : burstBit b = false) (rest : List Byte) :
    decodeBus (b :: rest) =
      if addrOf b = Radio.spec.paTableAddr then takeByte .patableWriteSingle rest
      else takeByte (.regWriteSingle (addrOf b)) rest := by
  simp only [decodeBus, hl, hr, hb]

/-- R106 to R108: a burst write. -/
theorem decodeBus_burstWrite (hl : strobeTable.lookup b = none) (hr : readBit b = false)
    (hb : burstBit b = true) (rest : List Byte) :
    decodeBus (b :: rest) =
      if addrOf b = Radio.spec.paTableAddr then takeCounted .patableWriteBurst rest
      else if addrOf b = Radio.spec.fifoAddr then takeCounted .txfifoWriteBurst rest
      else takeCounted (.burstWrite (addrOf b)) rest := by
  simp only [decodeBus, hl, hr, hb]

/-- R105: a configuration read. -/
theorem decodeBus_configRead (hl : strobeTable.lookup b = none) (hr : readBit b = true)
    (hb : burstBit b = false) (rest : List Byte) :
    decodeBus (b :: rest) =
      if Radio.spec.isConfigAddr (addrOf b) then .instr (.regReadConfig (addrOf b)) rest
      else .reject .notBusInstruction := by
  simp only [decodeBus, hl, hr, hb]

/-- R105, R106, R108: a status read or a burst read. -/
theorem decodeBus_burstRead (hl : strobeTable.lookup b = none) (hr : readBit b = true)
    (hb : burstBit b = true) (rest : List Byte) :
    decodeBus (b :: rest) =
      if Radio.spec.isStatusAddr (addrOf b) then .instr (.regReadStatus (addrOf b)) rest
      else if addrOf b = Radio.spec.fifoAddr then takeByte .rxfifoReadBurst rest
      else takeByte (.burstRead (addrOf b)) rest := by
  simp only [decodeBus, hl, hr, hb]

end

/-! ### Decoding what is encoded -/

/-- R90 to R93, R113: decoding gives back what was encoded. -/
theorem decodePort_encode {i : Instr} (h : i.wf = true) (rest : List Byte) :
    decodePort i.port (encode i ++ rest) = .instr i rest := by
  cases i with
  | beginTx ds => exact takeCounted_counted .beginTx ds rest h
  | append ds => exact takeCounted_counted .append ds rest h
  | illegalOpcode op => exact decodeHost_illegalOpcode h rest
  | regWriteSingle a v =>
    obtain ⟨hl, ha, hr, hb, hpa⟩ := writeByte_fields a h
    refine (decodeBus_write hl hr hb (v :: rest)).trans ?_
    rw [ha, if_neg hpa, takeByte]
  | regReadConfig a =>
    obtain ⟨hl, ha, hr, hb⟩ := configReadByte_fields a h
    refine (decodeBus_configRead hl hr hb rest).trans ?_
    rw [ha]; exact if_pos h
  | regReadStatus a =>
    obtain ⟨hl, ha, hr, hb⟩ := burstReadByte_fields a
    refine (decodeBus_burstRead hl hr hb rest).trans ?_
    rw [ha]; exact if_pos h
  | burstWrite a ds =>
    obtain ⟨hl, ha, hr, hb⟩ := burstWriteByte_fields a
    simp only [Instr.wf, Bool.and_eq_true, bne_iff_ne, and_assoc] at h
    obtain ⟨hpa, hfifo, hfit⟩ := h
    refine (decodeBus_burstWrite hl hr hb (counted ds ++ rest)).trans ?_
    rw [ha, if_neg hpa, if_neg hfifo, takeCounted_counted _ ds rest hfit]
  | burstRead a n =>
    obtain ⟨hl, ha, hr, hb⟩ := burstReadByte_fields a
    simp only [Instr.wf, Bool.and_eq_true, Bool.not_eq_true', bne_iff_ne] at h
    obtain ⟨hstatus, hfifo⟩ := h
    refine (decodeBus_burstRead hl hr hb (n :: rest)).trans ?_
    rw [ha, hstatus, if_neg Bool.false_ne_true, if_neg hfifo, takeByte]
  | patableWriteBurst ds => exact takeCounted_counted .patableWriteBurst ds rest h
  | txfifoWriteBurst ds => exact takeCounted_counted .txfifoWriteBurst ds rest h
  -- the first byte is a literal and no count follows: the decoder computes
  | _ => rfl

/-! ### Encoding what is decoded -/

/-- A table whose entries encode to their own byte. -/
theorem lookup_encode {table : List (Byte × Instr)}
    (entries : ∀ e ∈ table, e.2.wf = true ∧ encode e.2 = [e.1]) {b : Byte} {i : Instr}
    (h : table.lookup b = some i) : i.wf = true ∧ encode i = [b] := by
  obtain ⟨l₁, l₂, hl, -⟩ := List.lookup_eq_some_iff.1 h
  exact entries (b, i) (by simp [hl])

theorem h0Table_encode {op : Byte} {i : Instr} (h : h0Table.lookup op = some i) :
    i.wf = true ∧ encode i = [op] := lookup_encode (by decide) h

theorem strobeTable_encode {c : Byte} {i : Instr} (h : strobeTable.lookup c = some i) :
    i.wf = true ∧ encode i = [c] := lookup_encode (by decide) h

/-- R100, R105: a single write's byte is told by its address, which R104's strobes leave outside the status
range. -/
theorem writeByte_addrOf : ∀ b : Byte, strobeTable.lookup b = none → readBit b = false →
    burstBit b = false →
    Radio.spec.writeByte (addrOf b) = b ∧ Radio.spec.isStatusAddr (addrOf b) = false := by decide

/-- R100, R106: a burst write's byte is told by its address. -/
theorem burstWriteByte_addrOf : ∀ b : Byte, readBit b = false → burstBit b = true →
    Radio.spec.burstWriteByte (addrOf b) = b := by decide

/-- R100, R105: a configuration read's byte is told by its address. -/
theorem configReadByte_addrOf : ∀ b : Byte, readBit b = true → burstBit b = false →
    Radio.spec.configReadByte (addrOf b) = b := by decide

/-- R100, R106: a burst read's byte is told by its address. -/
theorem burstReadByte_addrOf : ∀ b : Byte, readBit b = true → burstBit b = true →
    Radio.spec.burstReadByte (addrOf b) = b := by decide

/-- R92, R93: what the host port decodes. -/
theorem encode_of_decodeHost {bytes rest : List Byte} {i : Instr}
    (h : decodeHost bytes = .instr i rest) : i.wf = true ∧ encode i ++ rest = bytes := by
  cases bytes with
  | nil => cases h
  | cons op bytes =>
    rcases opcode_cases op with hlookup | (rfl | rfl) | hillegal
    · obtain ⟨j, hj⟩ := Option.isSome_iff_exists.1 hlookup
      cases (decodeHost_h0 hj bytes).symm.trans h
      obtain ⟨hwf, hencode⟩ := h0Table_encode hj
      exact ⟨hwf, by rw [hencode]; rfl⟩
    · obtain ⟨ds, rfl, hfit, rfl⟩ := takeCounted_reads h
      exact ⟨hfit, rfl⟩
    · obtain ⟨ds, rfl, hfit, rfl⟩ := takeCounted_reads h
      exact ⟨hfit, rfl⟩
    · cases (decodeHost_illegalOpcode hillegal bytes).symm.trans h
      exact ⟨hillegal, rfl⟩

section
variable {b : Byte} {bytes rest : List Byte} {i : Instr}

theorem encode_of_decodeBus_write (hl : strobeTable.lookup b = none) (hr : readBit b = false)
    (hb : burstBit b = false) (h : decodeBus (b :: bytes) = .instr i rest) :
    i.wf = true ∧ encode i ++ rest = b :: bytes := by
  obtain ⟨hbyte, hstatus⟩ := writeByte_addrOf b hl hr hb
  rw [decodeBus_write hl hr hb] at h
  split at h
  · next hpa =>
    obtain ⟨v, rfl, rfl⟩ := takeByte_reads h
    exact ⟨rfl, by rw [encode, ← hpa, hbyte]; rfl⟩
  · next hpa =>
    obtain ⟨v, rfl, rfl⟩ := takeByte_reads h
    exact ⟨by simp [Instr.wf, hstatus, hpa], by rw [encode, hbyte]; rfl⟩

theorem encode_of_decodeBus_burstWrite (hl : strobeTable.lookup b = none) (hr : readBit b = false)
    (hb : burstBit b = true) (h : decodeBus (b :: bytes) = .instr i rest) :
    i.wf = true ∧ encode i ++ rest = b :: bytes := by
  have hbyte := burstWriteByte_addrOf b hr hb
  rw [decodeBus_burstWrite hl hr hb] at h
  split at h
  · next hpa =>
    obtain ⟨ds, rfl, hfit, rfl⟩ := takeCounted_reads h
    exact ⟨hfit, by rw [encode, ← hpa, hbyte]; rfl⟩
  next hpa =>
  split at h
  · next hfifo =>
    obtain ⟨ds, rfl, hfit, rfl⟩ := takeCounted_reads h
    exact ⟨hfit, by rw [encode, ← hfifo, hbyte]; rfl⟩
  · next hfifo =>
    obtain ⟨ds, rfl, hfit, rfl⟩ := takeCounted_reads h
    exact ⟨by simp [Instr.wf, hpa, hfifo, hfit], by rw [encode, hbyte]; rfl⟩

theorem encode_of_decodeBus_configRead (hl : strobeTable.lookup b = none) (hr : readBit b = true)
    (hb : burstBit b = false) (h : decodeBus (b :: bytes) = .instr i rest) :
    i.wf = true ∧ encode i ++ rest = b :: bytes := by
  have hbyte := configReadByte_addrOf b hr hb
  rw [decodeBus_configRead hl hr hb] at h
  split at h
  · next hconfig =>
    cases h
    exact ⟨hconfig, by rw [encode, hbyte]; rfl⟩
  · cases h

theorem encode_of_decodeBus_burstRead (hl : strobeTable.lookup b = none) (hr : readBit b = true)
    (hb : burstBit b = true) (h : decodeBus (b :: bytes) = .instr i rest) :
    i.wf = true ∧ encode i ++ rest = b :: bytes := by
  have hbyte := burstReadByte_addrOf b hr hb
  rw [decodeBus_burstRead hl hr hb] at h
  split at h
  · next hstatus =>
    cases h
    exact ⟨hstatus, by rw [encode, statusReadByte_eq, hbyte]; rfl⟩
  next hstatus =>
  split at h
  · next hfifo =>
    obtain ⟨n, rfl, rfl⟩ := takeByte_reads h
    exact ⟨rfl, by rw [encode, ← hfifo, hbyte]; rfl⟩
  · next hfifo =>
    obtain ⟨n, rfl, rfl⟩ := takeByte_reads h
    exact ⟨by simp [Instr.wf, hstatus, hfifo], by rw [encode, hbyte]; rfl⟩

end

/-- R100 to R108: what the dispatcher's port decodes. -/
theorem encode_of_decodeBus {bytes rest : List Byte} {i : Instr}
    (h : decodeBus bytes = .instr i rest) : i.wf = true ∧ encode i ++ rest = bytes := by
  cases bytes with
  | nil => cases h
  | cons b bytes =>
    cases hl : strobeTable.lookup b with
    | some j =>
      cases (decodeBus_strobe hl bytes).symm.trans h
      obtain ⟨hwf, hencode⟩ := strobeTable_encode hl
      exact ⟨hwf, by rw [hencode]; rfl⟩
    | none =>
      cases hr : readBit b with
      | false =>
        cases hb : burstBit b with
        | false => exact encode_of_decodeBus_write hl hr hb h
        | true => exact encode_of_decodeBus_burstWrite hl hr hb h
      | true =>
        cases hb : burstBit b with
        | false => exact encode_of_decodeBus_configRead hl hr hb h
        | true => exact encode_of_decodeBus_burstRead hl hr hb h

/-! ### The spec's numbers -/

/-- R104: the status range in the spec's encodings. -/
theorem spec_isStatusAddr_iff : ∀ a : Addr,
    Radio.spec.isStatusAddr a = true ↔ 0x30 ≤ a ∧ a ≤ 0x3D := by decide

/-- R100, R105: the single write's base is 0. -/
theorem spec_writeByte (a : Addr) : Radio.spec.writeByte a = a.setWidth 8 := BitVec.zero_or

/-- R109: Idle is code 0 of the status byte's bits 6:4 in the spec's encodings. -/
theorem spec_reportsIdle_iff (st : Byte) :
    Radio.spec.reportsIdle st = true ↔ st.extractLsb' 4 3 = 0 := by
  rw [Radio.reportsIdle, beq_iff_eq, ← BitVec.toNat_inj]
  rfl

/-! ### A transmission start whose ready flags come in time -/

theorem leftListening_pollsPass {s : State} {n : Nat} (h : s.pollsPass n) : (leftListening s).pollsPass n := by
  unfold leftListening; split <;> exact h

/-- R155: leaving Listening. -/
theorem exitListening_pass {s : State} {n : Nat} (h : s.pollsPass n) (hn : 14 ≤ n) :
    ∃ w ≤ 14, exitListening s = .ok () (setLink .idle
      (disarm (s.busAfter (s.opTraceAt .sidle 0 ++ s.opTraceAt .sfrx 1) 2 2 2 w))) := by
  have hidle : (disarm s).pollsPass n := h
  have hw₁ := opWaits_le ((disarm s).settles .sidle 0)
  have hw₂ := opWaits_le ((disarm s).settles .sfrx 1)
  refine ⟨opWaits ((disarm s).settles .sidle 0) + opWaits ((disarm s).settles .sfrx 1), by omega, ?_⟩
  rw [exitListening, legalStrobe_op_pass _ rfl hidle (by omega), Flow.andThen_ok,
    legalStrobe_op_pass (n := 7) _ rfl (hidle.after _ _ _ _ _ _ (by omega)) le_rfl, Flow.andThen_ok,
    busAfter_busAfter, busAfter_opTraceAt, busAfter_settles]
  rfl

/-- R155, R157: what a transmission start puts on the bus to leave Listening. -/
def State.leaveTrace (s : State) : List Transaction :=
  if s.linkState = .listening then s.opTraceAt .sidle 0 ++ s.opTraceAt .sfrx 1 else []

theorem txTrace_eq (s : State) (ds : List Byte) :
    s.txTrace ds = s.leaveTrace ++
      .write (s.cfg.radio.burstWriteByte s.cfg.radio.fifoAddr) (txFrame ds) ::
        s.opTraceAt .stx (s.txStrobes - 1) := by
  rw [State.txTrace, List.append_assoc]; rfl

theorem txTrace_of_not_listening {s : State} (h : s.linkState ≠ .listening) (ds : List Byte) :
    s.txTrace ds = [.write (s.cfg.radio.burstWriteByte s.cfg.radio.fifoAddr) (txFrame ds)] ++
      s.opTraceAt .stx 0 := by
  rw [txTrace_eq, State.leaveTrace, State.txStrobes, if_neg h, if_neg h]; rfl

/-- R157: Listening left, if the machine was listening. -/
theorem leaveListening_pass {s : State} {n : Nat} (h : s.pollsPass n) (hn : 14 ≤ n) :
    ∃ w ≤ 14, leaveListening s = .ok () ((leftListening s).busAfter s.leaveTrace
      (s.txStrobes - 1) (s.txStrobes - 1) (s.txStrobes - 1) w) := by
  by_cases hl : s.linkState = .listening
  · obtain ⟨w, hw, hexit⟩ := exitListening_pass h hn
    refine ⟨w, hw, ?_⟩
    rw [leaveListening, leftListening, State.leaveTrace, State.txStrobes, if_pos hl,
      if_pos hl, if_pos hl, if_pos hl, hexit]
    rfl
  · refine ⟨0, by omega, ?_⟩
    rw [leaveListening, leftListening, State.leaveTrace, State.txStrobes, if_neg hl,
      if_neg hl, if_neg hl, if_neg hl, busAfter_zero]

/-- R157: once armed, a transmission start puts the frame into the TX FIFO, strobes enter-TX and goes to
Transmitting. -/
theorem sendFrame_pass {s : State} {n : Nat} (ds : List Byte) (h : s.pollsPass n) (hn : ds.length + 8 ≤ n) :
    ∃ w, ((busBurstWrite s.cfg.radio.fifoAddr (txFrame ds) s).andThen fun _ s =>
        (legalStrobe .stx s).andThen fun _ s => .ok () (setLink .transmitting s)) =
      .ok () (setLink .transmitting (s.busAfter
        (.write (s.cfg.radio.burstWriteByte s.cfg.radio.fifoAddr) (txFrame ds) :: s.opTraceAt .stx 0)
        1 1 1 w)) := by
  have hlen : (txFrame ds).length = ds.length + 1 := rfl
  refine ⟨(txFrame ds).length + opWaits (s.settles .stx 0), ?_⟩
  rw [busBurstWrite_pass _ (txFrame ds) (List.cons_ne_nil _ _) h (by omega), Flow.andThen_ok,
    legalStrobe_op_pass (n := 7) .stx rfl (h.after _ _ _ _ _ _ (by omega)) le_rfl, Flow.andThen_ok,
    busAfter_busAfter, busAfter_opTraceAt, busAfter_settles]
  rfl

/-- R157: a transmission start whose ready flags come in time. -/
theorem txStart_pass {s : State} {n : Nat} (ds : List Byte) (h : s.pollsPass n) (hn : ds.length + 22 ≤ n) :
    ∃ w, txStart ds s = .ok ()
      { s.busAfter (s.txTrace ds) s.txStrobes s.txStrobes s.txStrobes w with
        irqPend := false, irqEn := true, linkState := .transmitting } := by
  obtain ⟨w₁, hw₁, hleave⟩ := leaveListening_pass h (by omega)
  have hpolls : (arm (leftListening s)).pollsPass n := leftListening_pollsPass h
  obtain ⟨w₂, hsend⟩ := sendFrame_pass ds
    (hpolls.after s.leaveTrace (s.txStrobes - 1) (s.txStrobes - 1) (s.txStrobes - 1) w₁
      (ds.length + 8) (by omega)) le_rfl
  refine ⟨w₁ + w₂, ?_⟩
  rw [txStart, hleave, Flow.andThen_ok]
  refine hsend.trans ?_
  rw [busAfter_busAfter, busAfter_opTraceAt, txTrace_eq]
  by_cases hl : s.linkState = .listening
  · rw [leftListening, State.txStrobes, if_pos hl, if_pos hl]
    rfl
  · rw [leftListening, State.txStrobes, if_neg hl, if_neg hl]
    rfl

/-! ### A queue filled and sent -/

/-- R210: bytes that fit the queue are stored behind its own. -/
theorem execAppend_fits {s : State} {ds : List Byte} (h : s.txqCount.toNat + ds.length ≤ s.cfg.txqCap) :
    execAppend ds s = .next (reply (.append ds) .ok 1 (enqueue ds s)) := by
  rw [execAppend, if_neg]
  rw [queueLacks_iff, Nat.not_lt]
  exact h

/-- R210: the count after APPEND. -/
theorem enqueue_count {s : State} {ds : List Byte} (h : s.txqCount.toNat + ds.length ≤ 255) :
    (enqueue ds s).txqCount.toNat = s.txqCount.toNat + ds.length := by
  rw [enqueue_txqCount, BitVec.toNat_add, BitVec.toNat_ofNat]
  omega

/-- R210: the queue after APPEND. -/
theorem enqueue_bytes {s : State} {ds : List Byte} (h : s.txqCount.toNat + ds.length ≤ 255) :
    queueBytes (enqueue ds s) = queueBytes s ++ ds := by
  rw [queueBytes, enqueue_count h, enqueue_txq, memRead_add, Nat.zero_add, memRead_memWrite,
    memRead_memWrite_disjoint (h := by omega)]
  rfl

/-- R212, R213: both forms of SEND_NEXT, from a queue whose first bytes `pick` chooses to send. -/
theorem sendNext_pass {cmd : Instr} {pick : State → Option Nat} {s : State} {len n : Nat}
    (hl : s.linkState ≠ .transmitting) (hne : s.txqCount ≠ 0) (hc : s.txqCount.toNat ≤ s.cfg.txqCap)
    (hpick : pick s = some len) (h : s.pollsPass n) (hn : len + 22 ≤ n) :
    ∃ w, sendNext cmd pick s = .next (reply cmd .ok (BitVec.ofNat 32 len)
      { (compact len s).busAfter (s.txTrace (memRead Config.unspecTxq s.txq 0 len))
          s.txStrobes s.txStrobes s.txStrobes w with
        irqPend := false, irqEn := true, linkState := .transmitting }) := by
  have hpolls : (compact len s).pollsPass n := h
  obtain ⟨w, htx⟩ := txStart_pass (memRead Config.unspecTxq s.txq 0 len) hpolls (by rwa [memRead_length])
  refine ⟨w, ?_⟩
  rw [sendNext, if_neg hl, if_neg hne, if_pos ((countInQueue_iff s).2 hc), hpick]
  dsimp only
  rw [sendFirst, htx]
  rfl

/-- R213: SEND_NEXT.FORCE from a queue that holds bytes. -/
theorem execSendNextForce_pass {s : State} {n : Nat} (hinit : s.initDone = true)
    (hl : s.linkState ≠ .transmitting) (hne : s.txqCount ≠ 0) (hc : s.txqCount.toNat ≤ s.cfg.txqCap)
    (h : s.pollsPass n) (hn : s.txqCount.toNat + 22 ≤ n) :
    ∃ w, execSendNextForce s = .next (reply .sendNextForce .ok (BitVec.ofNat 32 s.txqCount.toNat)
      { (compact s.txqCount.toNat s).busAfter (s.txTrace (queueBytes s))
          s.txStrobes s.txStrobes s.txStrobes w with
        irqPend := false, irqEn := true, linkState := .transmitting }) := by
  rw [execSendNextForce, ifInitialized_of_initDone hinit]
  exact sendNext_pass hl hne hc rfl h hn

/-! ### The obligations -/

/-- Settles O3, by the decoder's equation at each form's first byte. -/
theorem decodeOfEncodeIsTheInstruction : Obligations.DecodeOfEncodeIsTheInstruction :=
  fun _ rest h => decodePort_encode h rest

/-- Settles O4, by the form of each decoder's first byte. -/
theorem encodeOfDecodeIsTheBytes : Obligations.EncodeOfDecodeIsTheBytes := by
  intro p bs i rest h
  cases p with
  | host =>
    obtain ⟨hwf, hbytes⟩ := encode_of_decodeHost h
    exact ⟨hwf, decodeHost_port h, hbytes⟩
  | bus =>
    obtain ⟨hwf, hbytes⟩ := encode_of_decodeBus h
    exact ⟨hwf, decodeBus_port h, hbytes⟩

/-- Settles O5, by the opcode's format. -/
theorem hostDecoderIsTotalOnWholeCommands : Obligations.HostDecoderIsTotalOnWholeCommands :=
  fun _ => ⟨fun _ => decodeHost_whole, decodeHost_cutShort⟩

/-- Settles O30, by the transmission start in time. -/
theorem beginTxWritesTheFrameAndTransmits : Obligations.BeginTxWritesTheFrameAndTransmits := by
  intro s ds hinit hl hpos hmax hpolls
  obtain ⟨w, htx⟩ := txStart_pass ds hpolls le_rfl
  have hfits : payloadFits s.cfg ds = true := (payloadFits_iff _ _).2 ⟨hpos, hmax⟩
  refine ⟨w, ?_⟩
  rw [exec, execBeginTx, ifInitialized_of_initDone hinit, if_neg hl, if_pos hfits, htx]
  rfl

/-- Settles O41, by APPEND to a queue with room and SEND_NEXT.FORCE of what it then holds. -/
theorem appendedBytesReachTheTxFifoExactly : Obligations.AppendedBytesReachTheTxFifoExactly := by
  intro s ds hw hinit hl hempty hpos hcap hpolls
  obtain ⟨hmax, hmax255, -⟩ := Params_wf_bounds hw
  have hzero : s.txqCount.toNat = 0 := by rw [hempty]; rfl
  have hcount : (enqueue ds s).txqCount.toNat = ds.length := by
    rw [enqueue_count (by omega), hzero, Nat.zero_add]
  have hbytes : queueBytes (enqueue ds s) = ds := by
    rw [enqueue_bytes (by omega), queueBytes, hzero, memRead, List.nil_append]
  have hne : (enqueue ds s).txqCount ≠ 0 := fun h => by
    have : ds.length = 0 := hcount.symm.trans (congrArg BitVec.toNat h)
    omega
  have htx : s.linkState ≠ .transmitting := by rw [hl]; decide
  have hrx : s.linkState ≠ .listening := by rw [hl]; decide
  obtain ⟨w, hsend⟩ := execSendNextForce_pass (s := reply (.append ds) .ok 1 (enqueue ds s)) hinit
    htx hne (hcount.trans_le hcap) hpolls (by rw [reply_txqCount, hcount])
  refine ⟨_, _, execAppend_fits (by omega), hsend, ?_, rfl, ?_, ?_⟩
  · show s.busTrace ++ s.txTrace (queueBytes (enqueue ds s)) = _
    rw [hbytes, txTrace_of_not_listening hrx, List.append_assoc]
    rfl
  · show BitVec.ofNat 8 ((enqueue ds s).txqCount.toNat - (enqueue ds s).txqCount.toNat) = 0
    rw [Nat.sub_self]
    rfl
  · show s.hostLog ++ [_] ++ [⟨_, _, BitVec.ofNat 32 (enqueue ds s).txqCount.toNat⟩] = _
    rw [hcount, List.append_assoc]
    rfl

/-- Settles O2, word by word, and by the tables of the spec's encodings. -/
theorem specWordsDecodeAndTheDefaultRadioHasTheSpecsNumbers :
    Obligations.SpecWordsDecodeAndTheDefaultRadioHasTheSpecsNumbers := by
  refine ⟨by decide, rfl, fun a => ?_, rfl, rfl, rfl, rfl, rfl, fun k => ?_, spec_reportsIdle_iff⟩
  · exact ⟨spec_writeByte a, rfl, rfl, rfl, rfl, spec_isConfigAddr_iff a, spec_isStatusAddr_iff a⟩
  · simp [Radio.spec]

/-- Settles O33, by the decoder's equation at an illegal opcode and its refusal of a string cut short. -/
theorem illegalOpcodeIsAnsweredAndCutShortStringIsRefused :
    Obligations.IllegalOpcodeIsAnsweredAndCutShortStringIsRefused := by
  refine ⟨fun op rest s hop => ?_, fun s bytes rest hw hh hs hbytes => ?_⟩
  · exact ⟨decodeHost_illegalOpcode (isIllegalOpcode_iff.2 hop) rest, rfl⟩
  · refine step_host_reject hw hh hs (decodeHost_cutShort ?_)
    rcases hbytes with rfl | rfl | rfl | ⟨n, ds, rfl | rfl, hlt⟩
    · exact .inl rfl
    · exact .inl rfl
    · exact .inl rfl
    · exact .inr ⟨2 + n.toNat, rfl, by simp only [List.length_cons]; omega⟩
    · exact .inr ⟨2 + n.toNat, rfl, by simp only [List.length_cons]; omega⟩

end Sys2Proof.Machine

/-! SUPPORT. The bus instructions run alone when their ready flags come in time, and every sequence that uses
the bus when its first wait fails: proofs of the obligations of 40_bus_access. -/

namespace Sys2Proof.Machine

/-! ### A single ready-flag wait (R121) -/

theorem pollPasses_iff {cap polls : Option Nat} :
    pollPasses cap polls = true ↔ ∃ k, polls = some k ∧ ∀ c, cap = some c → k ≤ c := by
  cases polls with
  | none => simp [pollPasses]
  | some k => cases cap <;> simp [pollPasses]

theorem pollsPass_one {s : State} (h : pollPasses s.cfg.busWaitCap (s.pollDraw 0) = true) :
    s.pollsPass 1 := by
  intro k hk
  obtain rfl : k = 0 := by omega
  exact h

/-- R121: the next ready-flag wait fails. -/
def State.waitFails (s : State) : Prop := ¬ pollPasses s.cfg.busWaitCap (s.pollDraw 0) = true

/-- R121: a finite cap passes. -/
theorem waitFails_of_cap {s : State} {c : Nat} (hcap : s.cfg.busWaitCap = some c)
    (hlate : ∀ k, s.pollDraw 0 = some k → c < k) : s.waitFails := by
  rw [State.waitFails, pollPasses_iff]
  rintro ⟨k, hk, hle⟩
  exact (hlate k hk).not_ge (hle c hcap)

/-- R121: a flag is never seen. -/
theorem waitFails_of_never {s : State} (hnever : s.pollDraw 0 = none) : s.waitFails := by
  rw [State.waitFails, pollPasses_iff, hnever]
  rintro ⟨k, hk, -⟩
  cases hk

/-- R121, R148: a sequence cut off in u by a wait that fails: BUS_TIMEOUT under a finite cap, a hang under
INF. -/
def Flow.cut {α : Type} (u : State) : Flow α :=
  match u.cfg.busWaitCap with
  | some _ => .raised .busTimeout u
  | none => .hung u

theorem Flow.cut_of_cap {α : Type} {u : State} {c : Nat} (h : u.cfg.busWaitCap = some c) :
    (Flow.cut u : Flow α) = .raised .busTimeout u := by rw [Flow.cut, h]

theorem Flow.cut_of_inf {α : Type} {u : State} (h : u.cfg.busWaitCap = none) :
    (Flow.cut u : Flow α) = .hung u := by rw [Flow.cut, h]

/-- R148: nothing that is left of a sequence runs. -/
@[simp] theorem Flow.cut_andThen {α β : Type} (u : State) (g : α → State → Flow β) :
    (Flow.cut u).andThen g = .cut u := by
  cases h : u.cfg.busWaitCap with
  | some c => rw [Flow.cut_of_cap h, Flow.cut_of_cap h, Flow.andThen_raised]
  | none => rw [Flow.cut_of_inf h, Flow.cut_of_inf h, Flow.andThen_hung]

/-- R121: the two ways in which a wait fails. -/
theorem waitFlag_cut {s : State} (f : ReadyFlag) (h : s.waitFails) :
    waitFlag f s = .cut (s.busAfter [] 0 0 0 1) := by
  rw [waitFlag, if_neg h, tookPolls_eq]
  rfl

/-! ### Bus instructions run alone, their ready flags in time -/

/-- R130 to R144: the row of each strobe. -/
def Strobe.instr : Strobe → Instr
  | .sres => .sres
  | .sfstxon => .sfstxon
  | .sxoff => .sxoff
  | .scal => .scal
  | .srx => .srx
  | .stx => .stx
  | .sidle => .sidle
  | .strobe37 => .strobe37
  | .swor => .swor
  | .spwd => .spwd
  | .sfrx => .sfrx
  | .sftx => .sftx
  | .sworrst => .sworrst
  | .snop => .snop
  | .snopRx => .snopRx

theorem exec_strobe (k : Strobe) (s : State) : exec k.instr s = strobeCall k s := by cases k <;> rfl

/-- R123: a plain strobe. -/
theorem strobeCall_plain {s : State} {k : Strobe} (hk : k.isOperational = false) (h : s.pollsPass 1) :
    strobeCall k s = .next { s.busAfter [s.plainTrace k 0] 1 0 0 1 with
      callReturn := .status (s.statusDraw 0) } := by
  rw [strobeCall, legalStrobe_plain_pass k hk h le_rfl]
  rfl

/-- R124: an operational strobe. -/
theorem strobeCall_operational {s : State} {k : Strobe} (hk : k.isOperational = true) (h : s.pollsPass 7) :
    strobeCall k s = .next { s.busAfter (s.opTraceAt k 0) 1 1 1 (opWaits (s.settles k 0)) with
      callReturn := .status (s.statusDraw 0) } := by
  rw [strobeCall, legalStrobe_op_pass k hk h le_rfl]
  rfl

theorem settles_iff (s : State) (k : Strobe) (n : Nat) :
    s.settles k n = true ↔ s.asleepDraw n = true ∧ k ∉ s.cfg.radio.sleepFamily := by
  simp [State.settles]

/-- R125: the auxiliary register is read as a configuration register. -/
theorem Radio.readByte_aux (r : Radio) : r.readByte r.auxCfgAddr = r.configReadByte r.auxCfgAddr :=
  if_pos r.aux_config

theorem readCall_pass {s : State} (a : Addr) (h : s.pollsPass 2) :
    readCall a s = .next { s.busAfter [.read (s.cfg.radio.readByte a) [s.dataDraw 0]] 0 1 0 2 with
      callReturn := .value (s.dataDraw 0) } := by
  rw [readCall, busRegRead_pass a h le_rfl]
  rfl

/-- R146: a status address is not written. -/
theorem busRegWrite_status {s : State} {a : Addr} (v : Byte) (ha : s.cfg.radio.isStatusAddr a = true) :
    busRegWrite a v s = .ok false s := by
  rw [busRegWrite, if_pos ha]

theorem dataBytes_zero (s : State) (n : Nat) : s.dataBytes 0 n = (List.range n).map s.dataDraw := by
  simp [State.dataBytes]

theorem burstReadCall_zero (a : Addr) (s : State) :
    burstReadCall a 0 s = .next { s with callReturn := .bytes [] } := rfl

theorem burstReadCall_pass {s : State} (a : Addr) {n : Byte} (hn : n ≠ 0) (h : s.pollsPass (n.toNat + 1)) :
    burstReadCall a n s =
      .next { s.busAfter [.read (s.cfg.radio.burstReadByte a) (s.dataBytes 0 n.toNat)]
          0 n.toNat 0 (n.toNat + 1) with
        callReturn := .bytes (s.dataBytes 0 n.toNat) } := by
  have hne : n.toNat ≠ 0 := fun h0 => hn (BitVec.eq_of_toNat_eq h0)
  rw [burstReadCall, busBurstRead_pass a n.toNat hne h le_rfl, dataBytes_zero]
  rfl

/-- R128: a burst write of no bytes. -/
theorem busBurstWrite_nil (a : Addr) (s : State) : busBurstWrite a [] s = .ok () s := rfl

/-! ### The power table (R129) -/

/-- R129: the no-op after a write that took w waits. -/
theorem paPointerReset_after {s : State} (new : List Transaction) {w : Nat} (h : s.pollsPass (w + 1)) :
    paPointerReset (s.busAfter new 0 0 0 w) =
      .ok () (s.busAfter (new ++ [s.plainTrace .snop 0]) 1 0 0 (w + 1)) := by
  rw [paPointerReset_pass (h.after new 0 0 0 w 1 le_rfl) le_rfl, busAfter_busAfter, busAfter_plainTrace]

/-- R129: the single form and its no-op. -/
theorem busPaWrite_single {s : State} (v : Byte) (h : s.pollsPass 2) :
    busPaWrite [v] s = .ok () (s.busAfter
      [.write (s.cfg.radio.writeByte s.cfg.radio.paTableAddr) [v], s.plainTrace .snop 0] 1 0 0 2) := by
  have form : busPaWrite [v] s = (paWriteSingle v s).andThen fun _ s => paPointerReset s := rfl
  rw [form, paWriteSingle_pass v h (by omega), Flow.andThen_ok, paPointerReset_after _ h]
  rfl

/-- R129: the burst form and its no-op. -/
theorem paWriteBurst_noOp {s : State} {ds : List Byte} (hd : ds ≠ []) (h : s.pollsPass (ds.length + 1)) :
    ((paWriteBurst ds s).andThen fun _ s => paPointerReset s) = .ok () (s.busAfter
      [.write (s.cfg.radio.burstWriteByte s.cfg.radio.paTableAddr) ds, s.plainTrace .snop 0]
      1 0 0 (ds.length + 1)) := by
  rw [paWriteBurst_pass ds hd h (by omega), Flow.andThen_ok, paPointerReset_after _ h]
  rfl

/-- R129: the form that a power-table write takes by its length. -/
theorem busPaWrite_pass {s : State} {ds : List Byte} (hd : ds ≠ []) (h : s.pollsPass (ds.length + 1)) :
    busPaWrite ds s = .ok () (s.busAfter (paTrace s.cfg.radio ds ++ [s.plainTrace .snop 0])
      1 0 0 (ds.length + 1)) := by
  match ds with
  | [] => exact absurd rfl hd
  | [v] => exact busPaWrite_single v h
  | v :: w :: ds =>
    have burst : (v :: w :: ds).length ≠ 1 := by simp
    rw [paTrace, if_neg burst]
    exact paWriteBurst_noOp hd h

/-! ### A first wait that fails (R148)

Every sequence that uses the bus is cut off there, with what it wrote before its first wait. -/

section
variable {s : State}

theorem legalStrobe_cut (k : Strobe) (h : s.waitFails) :
    legalStrobe k s = .cut (s.busAfter [] 0 0 0 1) := by
  rw [legalStrobe, waitFlag_cut _ h, Flow.cut_andThen]

theorem busBurstWrite_cut (a : Addr) {ds : List Byte} (hd : ds ≠ []) (h : s.waitFails) :
    busBurstWrite a ds s = .cut (s.busAfter [] 0 0 0 1) := by
  rw [busBurstWrite, if_neg (List.length_pos_iff.2 hd).ne', waitFlag_cut _ h, Flow.cut_andThen]

theorem exitListening_cut (h : s.waitFails) :
    exitListening s = .cut (disarm (s.busAfter [] 0 0 0 1)) := by
  rw [exitListening, legalStrobe_cut (s := disarm s) _ h, Flow.cut_andThen]
  rfl

theorem atTxStart_of_listening (h : s.linkState = .listening) : s.atTxStart = disarm s := if_pos h

theorem atTxStart_of_not_listening (h : s.linkState ≠ .listening) : s.atTxStart = arm s := if_neg h

/-- R157: a transmission start is cut off at its first strobe from Listening, else at its frame. -/
theorem txStart_cut (ds : List Byte) (h : s.waitFails) :
    txStart ds s = .cut (s.busAfter [] 0 0 0 1).atTxStart := by
  by_cases hl : s.linkState = .listening
  · rw [txStart, leaveListening, if_pos hl, exitListening_cut h, Flow.cut_andThen,
      atTxStart_of_listening (s := s.busAfter [] 0 0 0 1) hl]
  · rw [txStart, leaveListening, if_neg hl, Flow.andThen_ok,
      busBurstWrite_cut (s := arm s) (ds := txFrame ds) _ (List.cons_ne_nil _ _) h, Flow.cut_andThen,
      atTxStart_of_not_listening (s := s.busAfter [] 0 0 0 1) hl]
    rfl

theorem execInit_cut (h : s.waitFails) :
    execInit s = .next (endCommand .init (.cut (s.busAfter [] 0 0 0 1))) := by
  rw [execInit, initSequence, legalStrobe_cut _ h, Flow.cut_andThen]

theorem execWaitIdlePoll_cut (hi : s.initDone = true) (h : s.waitFails) :
    execWaitIdlePoll s = .next (endCommand .waitIdlePoll (.cut (s.busAfter [] 0 0 0 1))) := by
  rw [execWaitIdlePoll, ifInitialized_of_initDone hi, legalStrobe_cut _ h, Flow.cut_andThen]

theorem execEnterListen_cut (hi : s.initDone = true) (hl : s.linkState = .idle) (h : s.waitFails) :
    execEnterListen s = .next (endCommand .enterListen (.cut (arm (s.busAfter [] 0 0 0 1)))) := by
  rw [execEnterListen, ifInitialized_of_initDone hi, if_pos hl, enterListening,
    legalStrobe_cut (s := arm s) _ h, Flow.cut_andThen]
  rfl

theorem execExitListen_cut (hi : s.initDone = true) (hl : s.linkState = .listening) (h : s.waitFails) :
    execExitListen s = .next (endCommand .exitListen (.cut (disarm (s.busAfter [] 0 0 0 1)))) := by
  rw [execExitListen, ifInitialized_of_initDone hi, if_pos hl, exitListening_cut h, Flow.cut_andThen]

theorem execBeginTx_cut {ds : List Byte} (hi : s.initDone = true) (hl : s.linkState ≠ .transmitting)
    (hfits : payloadFits s.cfg ds = true) (h : s.waitFails) :
    execBeginTx ds s =
      .next (endCommand (.beginTx ds) (.cut (s.busAfter [] 0 0 0 1).atTxStart)) := by
  rw [execBeginTx, ifInitialized_of_initDone hi, if_neg hl, if_pos hfits, txStart_cut ds h, Flow.cut_andThen]

/-! ### SEND_NEXT, its first wait failing -/

/-- R155, R157: what a transmission start writes before its first wait, field by field. -/
theorem atTxStart_eq (s : State) : s.atTxStart =
    { s with
      irqEn := s.linkState != .listening
      irqPend := s.irqPend && s.linkState == .listening } := by
  unfold State.atTxStart
  split <;> simp [*]

@[simp] theorem atTxStart_cfg : s.atTxStart.cfg = s.cfg := by rw [atTxStart_eq]
@[simp] theorem atTxStart_txqCount : s.atTxStart.txqCount = s.txqCount := by rw [atTxStart_eq]
@[simp] theorem atTxStart_queueBytes : queueBytes s.atTxStart = queueBytes s := by rw [atTxStart_eq]; rfl

theorem hang_atTxStart : (hang s).atTxStart = hang s.atTxStart := by rw [atTxStart_eq, atTxStart_eq]; rfl

/-- R212, R213, R216: the bytes to be sent are gone from the queue. -/
theorem sendNext_cut {cmd : Instr} {pick : State → Option Nat} {len : Nat}
    (hl : s.linkState ≠ .transmitting) (hne : s.txqCount ≠ 0) (hc : s.txqCount.toNat ≤ s.cfg.txqCap)
    (hpick : pick s = some len) (h : s.waitFails) :
    sendNext cmd pick s =
      .next (endCommand cmd (.cut (compact len (s.busAfter [] 0 0 0 1).atTxStart))) := by
  rw [sendNext, if_neg hl, if_neg hne, if_pos ((countInQueue_iff s).2 hc), hpick]
  dsimp only
  rw [sendFirst, txStart_cut (s := compact len s) _ h, Flow.cut_andThen, atTxStart_eq, atTxStart_eq]
  rfl

/-- R215: `Compact` of the whole queue. -/
theorem compact_all (s : State) : compact s.txqCount.toNat s = { s with txqCount := 0, txq := [] } := by
  simp [compact, memForget]

theorem execSendNextForce_cut (hi : s.initDone = true) (hl : s.linkState ≠ .transmitting)
    (hne : s.txqCount ≠ 0) (hc : s.txqCount.toNat ≤ s.cfg.txqCap) (h : s.waitFails) :
    execSendNextForce s = .next (endCommand .sendNextForce
      (.cut { (s.busAfter [] 0 0 0 1).atTxStart with txqCount := 0, txq := [] })) := by
  have hall := compact_all (s.busAfter [] 0 0 0 1).atTxStart
  rw [atTxStart_txqCount, busAfter_txqCount] at hall
  rw [execSendNextForce, ifInitialized_of_initDone hi, sendNext_cut hl hne hc rfl h, hall]

/-- R214: the first terminator is found. -/
theorem scan_eq_length {pre post : List Byte}
    (hq : queueBytes s = pre ++ [s.cfg.terminator] ++ post) (hpre : s.cfg.terminator ∉ pre) :
    scan s = some pre.length := by
  have hnone : pre.findIdx? (· == s.cfg.terminator) = none := by
    rw [List.findIdx?_eq_none_iff]
    intro b hb
    rw [beq_eq_false_iff_ne]
    rintro rfl
    exact hpre hb
  simp [scan, hq, List.findIdx?_append, List.findIdx?_cons, hnone]

theorem execSendNextFull_cut {pre post : List Byte} (hi : s.initDone = true)
    (hl : s.linkState ≠ .transmitting) (hc : s.txqCount.toNat ≤ s.cfg.txqCap)
    (hq : queueBytes s = pre ++ [s.cfg.terminator] ++ post) (hpre : s.cfg.terminator ∉ pre)
    (h : s.waitFails) :
    execSendNextFull s = .next (endCommand .sendNextFull
      (.cut (compact (pre.length + 1) (s.busAfter [] 0 0 0 1).atTxStart))) := by
  have hne : s.txqCount ≠ 0 := fun hz => by
    have hlen := congrArg List.length hq
    simp [hz] at hlen
  rw [execSendNextFull, ifInitialized_of_initDone hi,
    sendNext_cut hl hne hc (by rw [scan_eq_length hq hpre, Option.map_some]) h]

/-- R215: the bytes behind the first message stay in the queue. -/
theorem compact_message {pre post : List Byte} {b : Byte} (hq : queueBytes s = pre ++ [b] ++ post) :
    queueBytes (compact (pre.length + 1) s) = post := by
  have hlen := congrArg List.length hq
  simp only [queueBytes_length, List.length_append, List.length_singleton] at hlen
  rw [compact_bytes s _ (by omega), hq, List.drop_left' (by simp)]

end

/-! ### The hung machine -/

theorem step_hung {s : State} (hw : s.cfg.wf = true) (hh : s.hung = true) : step s = .next (hungTurn s) := by
  simp [step, hw, hh]

/-! ### The legal strobe codes -/

/-- R102: a code is legal when some strobe has it. -/
theorem Radio.strobeOf_ne_none {r : Radio} {c : Byte} : r.strobeOf c ≠ none ↔ ∃ k, r.code k = c := by
  rw [Ne, Radio.strobeOf_none, not_forall_not]

/-- R102: the legal codes in the spec's encodings. -/
theorem spec_strobeOf_ne_none_iff : ∀ c : Byte,
    Radio.spec.strobeOf c ≠ none ↔ (0x30 ≤ c ∧ c ≤ 0x3D) ∨ c = 0xBD := by decide

theorem busStrobe_illegal {c : Byte} {s : State} (h : s.cfg.radio.strobeOf c = none) :
    busStrobe c s = .ok none s := by
  rw [busStrobe, h]

theorem busStrobe_ne_err {c : Byte} {s : State} (h : s.cfg.radio.strobeOf c ≠ none) (t : State) :
    busStrobe c s ≠ .ok none t := by
  obtain ⟨k, hk⟩ := Option.ne_none_iff_exists'.1 h
  rw [busStrobe_legal hk]
  cases legalStrobe k s <;> simp

/-! ### The obligations -/

/-- Settles O12, by the operational strobe in time, the settle condition and the auxiliary register's read
written out. -/
theorem operationalStrobesRunTheErratumSequence : Obligations.OperationalStrobesRunTheErratumSequence := by
  intro p hp s h
  obtain ⟨hrow, hop⟩ : p.1 = p.2.instr ∧ p.2.isOperational = true := by revert p; decide
  rw [hrow, exec_strobe, strobeCall_operational hop h]
  simp only [State.opTraceAt, Radio.readByte_aux, opWaits, settles_iff]

/-- Settles O16, by the burst read in time; both rows run it. -/
theorem burstReadReadsExactlyTheCount : Obligations.BurstReadReadsExactlyTheCount := by
  intro a n s p hp
  have hexec : exec p.1 s = burstReadCall p.2 n s := by
    rcases List.mem_pair.1 hp with rfl | rfl <;> rfl
  rw [hexec]
  refine ⟨?_, burstReadCall_pass p.2⟩
  rintro rfl
  exact burstReadCall_zero p.2 s

/-- Settles O17, by the burst write in time; both rows run it. -/
theorem burstWriteStreamsItsBytes : Obligations.BurstWriteStreamsItsBytes := by
  intro a ds s p hp
  have hexec : exec p.1 s = writeCall (busBurstWrite p.2 ds s) := by
    rcases List.mem_pair.1 hp with rfl | rfl <;> rfl
  rw [hexec]
  refine ⟨?_, fun hd h => ?_⟩
  · rintro rfl
    rfl
  · rw [busBurstWrite_pass p.2 ds hd h le_rfl]
    rfl

/-- Settles O18, by the two forms of the write, each with its no-op. -/
theorem powerTableWriteEndsWithNoOp : Obligations.PowerTableWriteEndsWithNoOp := by
  intro ds s
  refine ⟨?_, fun hd h => ⟨busPaWrite_pass hd h, ?_, ?_⟩⟩
  · rintro rfl h
    rw [exec, execPatableWriteBurst, paWriteBurst, busBurstWrite_nil, Flow.andThen_ok,
      paPointerReset_pass h le_rfl]
    rfl
  · rintro v rfl
    rw [exec, execPatableWriteSingle, busPaWrite_single v h]
    rfl
  · rw [exec, execPatableWriteBurst, paWriteBurst_noOp hd h]
    rfl

/-- Settles O10, by the hung machine's turn at each head item. -/
theorem hungMachineNeverResumes : Obligations.HungMachineNeverResumes := by
  intro s hw hh
  rw [step_hung hw hh]
  refine ⟨fun rest hs => ?_, fun rest hs => ?_, fun hfall hrise => ?_⟩
  · rw [hungTurn, hs, dropInput_eq hs]
    rfl
  · rw [hungTurn, hs, dropInput_eq hs]
  · unfold hungTurn
    split
    · next rest hs => exact absurd hs (hfall rest)
    · next rest hs => exact absurd hs (hrise rest)
    · rfl

/-- Settles O11, by the plain strobe in time. -/
theorem plainStrobesIssueOneTransaction : Obligations.PlainStrobesIssueOneTransaction := by
  intro p hp s h
  obtain ⟨hrow, hplain⟩ : p.1 = p.2.instr ∧ p.2.isOperational = false := by revert p; decide
  rw [hrow, exec_strobe, strobeCall_plain hplain h]
  rfl

/-- Settles O13, by the strobe that a code stands for. -/
theorem illegalStrobeCodeAnswersErr : Obligations.IllegalStrobeCodeAnswersErr := by
  intro c s
  refine ⟨fun h => busStrobe_illegal (Radio.strobeOf_none.2 h), fun h => ?_, ?_⟩
  · exact busStrobe_ne_err (Radio.strobeOf_ne_none.2 h)
  · exact Radio.strobeOf_ne_none.symm.trans (spec_strobeOf_ne_none_iff c)

/-- Settles O14, by the address's range. -/
theorem registerWriteIssuesOneWriteOrErr : Obligations.RegisterWriteIssuesOneWriteOrErr := by
  intro a v s
  refine ⟨fun ha => ?_, fun ha h => ?_⟩
  · rw [exec, execRegWriteSingle, busRegWrite_status v ha]
    rfl
  · rw [exec, execRegWriteSingle, busRegWrite_pass a v ha h le_rfl]
    rfl

/-- Settles O15, by the register read in time; both rows run it. -/
theorem registerReadRoutesByAddress : Obligations.RegisterReadRoutesByAddress := by
  intro a s h r i hi
  have hexec : exec i s = readCall a s := by
    rcases List.mem_pair.1 hi with rfl | rfl <;> rfl
  rw [hexec, readCall_pass a h]
  rfl

/-- Settles O20, by the wait that passes and the two ways it fails. -/
theorem readyFlagWaitIsBounded : Obligations.ReadyFlagWaitIsBounded := by
  intro f s
  refine ⟨fun k hk hle => ?_, fun c hcap hlate => ?_, fun hinf hnever => ?_⟩
  · exact waitFlag_pass f (pollsPass_one (pollPasses_iff.2 ⟨k, hk, hle⟩)) le_rfl
  · exact (waitFlag_cut f (waitFails_of_cap hcap hlate)).trans (Flow.cut_of_cap hcap)
  · exact (waitFlag_cut f (waitFails_of_never hnever)).trans (Flow.cut_of_inf hinf)

/-- Settles O22, by the state in which each command's first wait cuts it off. -/
theorem busTimeoutEndsTheCommandAtItsFirstWait : Obligations.BusTimeoutEndsTheCommandAtItsFirstWait := by
  intro s c hcap hlate u cut
  have h : s.waitFails := waitFails_of_cap hcap hlate
  have timeout {cmd : Instr} {v : State} (hv : v.cfg = s.cfg) :
      (.next (endCommand cmd (.cut v)) : Outcome) = .next (cut cmd v) := by
    rw [Flow.cut_of_cap (hv ▸ hcap)]
    rfl
  refine ⟨(execInit_cut h).trans (timeout rfl), fun hi => ⟨?_, fun hl => ?_, fun hl => ?_,
    fun hl => ⟨fun ds hpos hmax => ?_, fun hne hc => ?_, fun pre post hc hq hpre => ?_⟩⟩⟩
  · exact (execWaitIdlePoll_cut hi h).trans (timeout rfl)
  · exact (execEnterListen_cut hi hl h).trans (timeout rfl)
  · exact (execExitListen_cut hi hl h).trans (timeout rfl)
  · exact (execBeginTx_cut hi hl ((payloadFits_iff _ _).2 ⟨hpos, hmax⟩) h).trans (timeout atTxStart_cfg)
  · exact (execSendNextForce_cut hi hl hne hc h).trans (timeout atTxStart_cfg)
  · exact ⟨_, (execSendNextFull_cut hi hl hc hq hpre h).trans (timeout atTxStart_cfg),
      compact_message (atTxStart_queueBytes.trans hq), rfl⟩

/-- Settles O23, by the state in which each command's first wait cuts it off. -/
theorem neverSeenFlagHangsTheCommand : Obligations.NeverSeenFlagHangsTheCommand := by
  intro s hinf hnever u
  have h : s.waitFails := waitFails_of_never hnever
  have hangs {cmd : Instr} {v : State} (hv : v.cfg = s.cfg) :
      (.next (endCommand cmd (.cut v)) : Outcome) = .next (hang v) := by
    rw [Flow.cut_of_inf (hv ▸ hinf)]
    rfl
  have hu : u.atTxStart = hang (s.busAfter [] 0 0 0 1).atTxStart := hang_atTxStart
  rw [hu]
  refine ⟨(execInit_cut h).trans (hangs rfl), fun hi => ⟨?_, fun hl => ?_, fun hl => ?_,
    fun hl => ⟨fun ds hpos hmax => ?_, fun hne hc => ?_, fun pre post hc hq hpre => ?_⟩⟩⟩
  · exact (execWaitIdlePoll_cut hi h).trans (hangs rfl)
  · exact (execEnterListen_cut hi hl h).trans (hangs rfl)
  · exact (execExitListen_cut hi hl h).trans (hangs rfl)
  · exact (execBeginTx_cut hi hl ((payloadFits_iff _ _).2 ⟨hpos, hmax⟩) h).trans (hangs atTxStart_cfg)
  · exact (execSendNextForce_cut hi hl hne hc h).trans (hangs atTxStart_cfg)
  · exact ⟨_, (execSendNextFull_cut hi hl hc hq hpre h).trans (hangs atTxStart_cfg),
      compact_message (atTxStart_queueBytes.trans hq), rfl⟩

end Sys2Proof.Machine

/-! SUPPORT. The link commands turned away or run with their ready flags in time, the bus writes of a host
command while Transmitting, and the handler's end: proofs of the obligations of 41_link_state_machine. -/

namespace Sys2Proof.Machine

/-! ### Commands turned away -/

/-- R149: before INIT a command that issues bus transactions runs no part of its body. -/
theorem ifInitialized_of_not_initDone {cmd : Instr} {s : State} {body : State → Outcome}
    (h : s.initDone = false) : ifInitialized cmd s body = .next (reply cmd .notInitialized 0 s) := by
  rw [ifInitialized, if_neg (Bool.eq_false_iff.1 h)]

/-- R152: ENTER_LISTEN outside Idle. -/
theorem execEnterListen_illegal {s : State} (hi : s.initDone = true) (hl : s.linkState ≠ .idle) :
    execEnterListen s = .next (reply .enterListen .illegalState 0 s) := by
  rw [execEnterListen, ifInitialized_of_initDone hi, if_neg hl]

/-- R154: EXIT_LISTEN outside Listening. -/
theorem execExitListen_illegal {s : State} (hi : s.initDone = true) (hl : s.linkState ≠ .listening) :
    execExitListen s = .next (reply .exitListen .illegalState 0 s) := by
  rw [execExitListen, ifInitialized_of_initDone hi, if_neg hl]

/-- R156: BEGIN_TX while Transmitting. -/
theorem execBeginTx_illegal {s : State} (ds : List Byte) (hi : s.initDone = true)
    (hl : s.linkState = .transmitting) :
    execBeginTx ds s = .next (reply (.beginTx ds) .illegalState 0 s) := by
  rw [execBeginTx, ifInitialized_of_initDone hi, if_pos hl]

/-- R156: BEGIN_TX of no byte or of more than MAX_PAYLOAD. -/
theorem execBeginTx_badLength {s : State} {ds : List Byte} (hi : s.initDone = true)
    (hl : s.linkState ≠ .transmitting) (hd : ds.length = 0 ∨ s.cfg.maxPayload < ds.length) :
    execBeginTx ds s = .next (reply (.beginTx ds) .badLength 0 s) := by
  have hfits : ¬ payloadFits s.cfg ds = true := by rw [payloadFits_iff]; omega
  rw [execBeginTx, ifInitialized_of_initDone hi, if_neg hl, if_neg hfits]

/-! ### Commands that answer something else -/

theorem BusOnly.hostLog {s t : State} (h : BusOnly s t) : t.hostLog = s.hostLog := by
  obtain ⟨_, _, _, _, _, rfl⟩ := h; rfl

/-- R149: between s and t no result of the command says that INIT is missing. -/
def NoInitCheck (cmd : Instr) (s t : State) : Prop :=
  { cmd := cmd, result := { code := .notInitialized, value := 0 } } ∉ t.hostLog.drop s.hostLog.length

theorem reply_noInitCheck {cmd : Instr} {code : ResultCode} {s u : State} (value : Word32)
    (hlog : u.hostLog = s.hostLog) (hcode : code ≠ .notInitialized) :
    NoInitCheck cmd s (reply cmd code value u) := by
  rw [NoInitCheck, reply_hostLog, hlog, List.drop_left, List.mem_singleton]
  intro h
  cases h
  exact hcode rfl

theorem CutOff.noInitCheck {cmd : Instr} {s v t : State} (h : CutOff cmd v t)
    (hlog : v.hostLog = s.hostLog) : NoInitCheck cmd s t := by
  obtain ⟨u, hu, ⟨-, rfl⟩ | ⟨-, rfl⟩⟩ := h
  · exact reply_noInitCheck 0 (hu.hostLog.trans hlog) nofun
  · rw [NoInitCheck, hang_hostLog, hu.hostLog, hlog, List.drop_length]
    exact List.not_mem_nil

theorem execInit_noInitCheck {s t : State} (h : execInit s = .next t) : NoInitCheck .init s t := by
  rcases execInit_next h with h | h | ⟨u, hu, rfl⟩
  · exact h.noInitCheck rfl
  · exact h.noInitCheck rfl
  · exact reply_noInitCheck 0 hu.hostLog nofun

theorem execAppend_noInitCheck (ds : List Byte) (s : State) :
    ∃ t, execAppend ds s = .next t ∧ NoInitCheck (.append ds) s t := by
  unfold execAppend
  split
  · exact ⟨_, rfl, reply_noInitCheck 0 rfl nofun⟩
  · exact ⟨_, rfl, reply_noInitCheck 1 rfl nofun⟩

/-! ### INIT whose ready flags come in time -/

/-- R150: the configuration writes, none of them to a status address. -/
theorem writeConfig_pass {tbl : List (Addr × Byte)} {s : State}
    (ht : ∀ e ∈ tbl, s.cfg.radio.isStatusAddr e.1 = false) (h : s.pollsPass tbl.length) :
    writeConfig tbl s = .ok () (s.busAfter (configTrace s.cfg.radio tbl) 0 0 0 tbl.length) := by
  induction tbl generalizing s with
  | nil => rw [writeConfig, configTrace, List.map_nil, List.length_nil, busAfter_zero]
  | cons e tbl ih =>
    obtain ⟨a, v⟩ := e
    rw [List.forall_mem_cons] at ht
    rw [List.length_cons] at h ⊢
    have written := busRegWrite_pass a v ht.1 h (by omega)
    have rest := ih (s := s.busAfter [.write (s.cfg.radio.writeByte a) [v]] 0 0 0 1) ht.2
      (h.after _ _ _ _ _ _ (by omega))
    rw [writeConfig, written, Flow.andThen_ok, rest, busAfter_busAfter, Nat.add_comm 1]
    rfl

/-- R15, R104: INIT's table names no status address, and there is a power table. -/
theorem Params_wf_tables {c : Config.Params} (h : c.wf = true) :
    (∀ e ∈ c.configTable, c.radio.isStatusAddr e.1 = false) ∧ c.paTable ≠ [] := by
  obtain ⟨-, -, -, ⟨hpa, -⟩, -, htable⟩ := (Params_wf_iff c).1 h
  exact ⟨fun e he => Radio.config_not_status (htable e he), List.length_pos_iff.1 hpa⟩

/-- R150: INIT's radio reset and its no-op. -/
def State.resetTrace (s : State) : List Transaction := [s.plainTrace .sres 0, s.plainTrace .snop 1]

/-- R150: the transactions of INIT. -/
def State.initTrace (s : State) : List Transaction :=
  s.resetTrace ++ configTrace s.cfg.radio s.cfg.configTable ++ paTrace s.cfg.radio s.cfg.paTable ++
    [s.plainTrace .snop 2]

/-- R150: the ready-flag waits of INIT. -/
def State.initWaits (s : State) : Nat := 3 + s.cfg.configTable.length + s.cfg.paTable.length

theorem initSequence_pass {s : State} (hw : s.cfg.wf = true) (h : s.pollsPass s.initWaits) :
    initSequence s = .ok { code := .ok, value := 0 }
      (setInitDone ((clearFlags s).busAfter s.initTrace 3 0 0 s.initWaits)) := by
  have hwaits : s.initWaits = 2 + s.cfg.configTable.length + (s.cfg.paTable.length + 1) := by
    rw [State.initWaits]; omega
  have hcleared : (clearFlags s).pollsPass s.initWaits := h
  obtain ⟨htable, hpa⟩ := Params_wf_tables hw
  have reset := legalStrobe_plain_pass .sres rfl h (by omega)
  have noOp : legalStrobe .snop (s.busAfter [s.plainTrace .sres 0] 1 0 0 1) =
      .ok (s.statusDraw 1) (s.busAfter s.resetTrace 2 0 0 2) := by
    rw [legalStrobe_plain_pass (n := 1) .snop rfl (h.after _ _ _ _ _ _ (by omega)) le_rfl,
      busAfter_busAfter, busAfter_plainTrace, busAfter_statusDraw]
    rfl
  have config : writeConfig s.cfg.configTable (clearFlags (s.busAfter s.resetTrace 2 0 0 2)) =
      .ok () ((clearFlags s).busAfter (s.resetTrace ++ configTrace s.cfg.radio s.cfg.configTable)
        2 0 0 (2 + s.cfg.configTable.length)) := by
    refine (writeConfig_pass (s := (clearFlags s).busAfter s.resetTrace 2 0 0 2) htable
      (hcleared.after _ _ _ _ _ _ (by omega))).trans ?_
    rw [busAfter_busAfter]
    rfl
  have power : busPaWrite s.cfg.paTable
      ((clearFlags s).busAfter (s.resetTrace ++ configTrace s.cfg.radio s.cfg.configTable)
        2 0 0 (2 + s.cfg.configTable.length)) =
      .ok () ((clearFlags s).busAfter s.initTrace 3 0 0 s.initWaits) := by
    rw [busPaWrite_pass hpa (hcleared.after _ _ _ _ _ _ (by omega)), busAfter_busAfter,
      busAfter_plainTrace, ← hwaits, ← List.append_assoc]
    rfl
  rw [initSequence, reset, Flow.andThen_ok, noOp, Flow.andThen_ok, busAfter_cfg, config,
    Flow.andThen_ok, busAfter_cfg, clearFlags_cfg, power, Flow.andThen_ok]

/-- R150: the state after an INIT whose ready flags come in time. -/
def State.afterInit (s : State) : State :=
  reply .init .ok 0 (setInitDone ((clearFlags s).busAfter s.initTrace 3 0 0 s.initWaits))

theorem execInit_pass {s : State} (hw : s.cfg.wf = true) (h : s.pollsPass s.initWaits) :
    execInit s = .next s.afterInit := by
  rw [execInit, initSequence_pass hw h]
  rfl

/-! ### What a host command writes on the bus while Transmitting -/

/-- R158: a transaction that does not write the TX FIFO. -/
def SparesTxFifo (r : Radio) (x : Transaction) : Prop :=
  ∀ ds, x ≠ .write (r.burstWriteByte r.fifoAddr) ds

/-- R158: between s and t no transaction has written the TX FIFO. -/
def TxFifoSpared (s t : State) : Prop :=
  t.cfg = s.cfg ∧ ∃ new, t.busTrace = s.busTrace ++ new ∧ ∀ x ∈ new, SparesTxFifo s.cfg.radio x

theorem TxFifoSpared.of_same {s t : State} (hc : t.cfg = s.cfg := by rfl)
    (hb : t.busTrace = s.busTrace := by rfl) : TxFifoSpared s t :=
  ⟨hc, [], by rw [hb, List.append_nil], nofun⟩

theorem TxFifoSpared.trans {s t u : State} (h : TxFifoSpared s t) (h' : TxFifoSpared t u) :
    TxFifoSpared s u := by
  obtain ⟨hc, new, hb, hnew⟩ := h
  obtain ⟨hc', new', hb', hnew'⟩ := h'
  refine ⟨hc'.trans hc, new ++ new', by rw [hb', hb, List.append_assoc], ?_⟩
  rw [List.forall_mem_append]
  exact ⟨hnew, hc ▸ hnew'⟩

theorem TxFifoSpared.traced {s : State} {x : Transaction} (h : SparesTxFifo s.cfg.radio x) :
    TxFifoSpared s (s.traced x) :=
  ⟨rfl, [x], rfl, by rwa [List.forall_mem_singleton]⟩

/-- A write whose instruction byte is not the TX FIFO's. -/
theorem write_sparesTxFifo {r : Radio} {b : Byte} (hb : b ≠ r.burstWriteByte r.fifoAddr)
    (ds : List Byte) : SparesTxFifo r (.write b ds) := fun _ h => hb (Transaction.write.inj h).1

/-- The state that a micro-sequence ends in, in each of its three ways. -/
def Flow.state {α : Type} : Flow α → State
  | .ok _ s => s
  | .raised _ s => s
  | .hung s => s

theorem TxFifoSpared.andThen {α β : Type} {s : State} {f : Flow α} {g : α → State → Flow β}
    (hf : TxFifoSpared s f.state) (hg : ∀ a t, t.cfg = s.cfg → TxFifoSpared t (g a t).state) :
    TxFifoSpared s (f.andThen g).state := by
  cases f with
  | ok a t => exact hf.trans (hg a t hf.1)
  | raised c t => exact hf
  | hung t => exact hf

theorem waitFlag_spares (f : ReadyFlag) (s : State) : TxFifoSpared s (waitFlag f s).state := by
  unfold waitFlag
  split
  · exact .of_same
  · split <;> exact .of_same

theorem plainStrobe_spares (k : Strobe) (s : State) : TxFifoSpared s (plainStrobe k s).state :=
  .trans (t := s.tookStatus) .of_same (.traced nofun)

theorem legalStrobe_spares {k : Strobe} (hk : k.isOperational = false) (s : State) :
    TxFifoSpared s (legalStrobe k s).state := by
  refine (waitFlag_spares _ s).andThen fun _ t _ => ?_
  rw [hk]
  exact plainStrobe_spares k t

theorem burstWaits_spares (n : Nat) (s : State) : TxFifoSpared s (burstWaits n s).state := by
  induction n generalizing s with
  | zero => exact .of_same
  | succ n ih => exact (waitFlag_spares _ s).andThen fun _ t _ => ih t

/-- R158: the TX FIFO's instruction byte is none of the radio's other write bytes (log 15). -/
structure Radio.TxFifoByteApart (r : Radio) : Prop where
  single : ∀ a, r.writeByte a ≠ r.burstWriteByte r.fifoAddr
  power : r.burstWriteByte r.paTableAddr ≠ r.burstWriteByte r.fifoAddr

section
variable {s : State} (hr : s.cfg.radio.TxFifoByteApart)
include hr

theorem busRegWrite_spares (a : Addr) (v : Byte) : TxFifoSpared s (busRegWrite a v s).state := by
  unfold busRegWrite
  split
  · exact .of_same
  · exact (waitFlag_spares _ s).andThen fun _ t ht =>
      .traced (write_sparesTxFifo ((ht ▸ hr :).single a) _)

theorem writeConfig_spares (tbl : List (Addr × Byte)) : TxFifoSpared s (writeConfig tbl s).state := by
  induction tbl generalizing s with
  | nil => exact .of_same
  | cons e tbl ih => exact (busRegWrite_spares hr e.1 e.2).andThen fun _ t ht => ih (ht ▸ hr)

theorem paWriteSingle_spares (v : Byte) : TxFifoSpared s (paWriteSingle v s).state :=
  (waitFlag_spares _ s).andThen fun _ _ ht => .traced (write_sparesTxFifo ((ht ▸ hr :).single _) _)

theorem paWriteBurst_spares (ds : List Byte) : TxFifoSpared s (paWriteBurst ds s).state := by
  unfold paWriteBurst busBurstWrite
  split
  · exact .of_same
  · refine (waitFlag_spares _ s).andThen fun _ _ ht => (burstWaits_spares _ _).andThen fun _ u hu => ?_
    have hu : u.cfg = s.cfg := hu.trans ht
    exact .traced (write_sparesTxFifo (hu ▸ hr.power) _)

theorem busPaWrite_spares (ds : List Byte) : TxFifoSpared s (busPaWrite ds s).state := by
  unfold busPaWrite
  refine TxFifoSpared.andThen ?_ fun _ t _ => (legalStrobe_spares rfl t).andThen fun _ _ _ => .of_same
  split
  · exact paWriteSingle_spares hr _
  · exact paWriteBurst_spares hr _

/-- R150: INIT writes the configuration and the power table alone. -/
theorem initSequence_spares : TxFifoSpared s (initSequence s).state := by
  refine (legalStrobe_spares rfl s).andThen fun _ t ht => (legalStrobe_spares rfl t).andThen fun _ u hu => ?_
  have hu : u.cfg = s.cfg := hu.trans ht
  refine .trans (t := clearFlags u) .of_same ?_
  refine (writeConfig_spares (s := clearFlags u) (hu ▸ hr :) _).andThen fun _ v hv => ?_
  have hv : v.cfg = s.cfg := hv.trans hu
  exact (busPaWrite_spares (hv ▸ hr :) _).andThen fun _ _ _ => .of_same

end

theorem endCommand_spares {s : State} (cmd : Instr) {f : Flow Result} (h : TxFifoSpared s f.state) :
    TxFifoSpared s (endCommand cmd f) := by
  cases f with
  | ok r u => exact h.trans .of_same
  | raised c u => exact h.trans (by cases c <;> exact .of_same)
  | hung u => exact h.trans .of_same

/-- R160: the poll is a no-op strobe. -/
theorem execWaitIdlePoll_spares {s t : State} (h : execWaitIdlePoll s = .next t) : TxFifoSpared s t := by
  rcases ifInitialized_next h with ⟨-, rfl⟩ | ⟨-, h⟩
  · exact .of_same
  cases h
  refine endCommand_spares _ ((legalStrobe_spares rfl s).andThen fun st u _ => ?_)
  unfold judgePoll
  split
  · exact .of_same
  · split <;> exact .of_same

/-- R212, R213: nothing is sent while Transmitting. -/
theorem sendNext_transmitting {cmd : Instr} {pick : State → Option Nat} {s t : State}
    (hl : s.linkState = .transmitting) (h : ifInitialized cmd s (sendNext cmd pick) = .next t) :
    TxFifoSpared s t := by
  rcases ifInitialized_next h with ⟨-, rfl⟩ | ⟨-, h⟩
  · exact .of_same
  rcases sendNext_next h with rfl | ⟨hne, -⟩
  · exact .of_same
  · exact absurd hl hne

/-- R158: every host command while Transmitting. -/
theorem execHost_transmitting {i : Instr} {s t : State} (hr : s.cfg.radio.TxFifoByteApart)
    (hp : i.port = .host) (hl : s.linkState = .transmitting) (h : exec i s = .next t) :
    TxFifoSpared s t := by
  have other {l : LinkState} (hl' : s.linkState = l) (hne : l ≠ .transmitting) : False :=
    hne (hl'.symm.trans hl)
  cases i with
  | init =>
    cases h
    exact endCommand_spares .init (initSequence_spares hr)
  | waitIdlePoll => exact execWaitIdlePoll_spares h
  | enterListen =>
    rcases execEnterListen_next h with ⟨_, rfl, -⟩ | ⟨-, hidle, -⟩
    · exact .of_same
    · exact (other hidle nofun).elim
  | exitListen =>
    rcases execExitListen_next h with ⟨_, rfl, -⟩ | ⟨-, hlisten, -⟩
    · exact .of_same
    · exact (other hlisten nofun).elim
  | beginTx ds =>
    rcases execBeginTx_next h with ⟨_, rfl, -⟩ | ⟨-, hne, -⟩
    · exact .of_same
    · exact absurd hl hne
  | append ds =>
    simp only [exec, execAppend] at h
    split at h <;> cases h <;> exact .of_same
  | sendNextFull => exact sendNext_transmitting hl h
  | sendNextForce => exact sendNext_transmitting hl h
  | readStatus => cases h; exact .of_same
  | illegalOpcode op => cases h; exact .of_same
  | _ => cases hp

/-! ### The handler's step, by LINK_STATE (R250) -/

theorem handlerStep_listening {s : State} (h : s.linkState = .listening) :
    handlerStep s = handlerListening (handlerEntry s) := by
  rw [handlerStep, h]

theorem handlerStep_transmitting {s : State} (h : s.linkState = .transmitting) :
    handlerStep s = handlerTransmitting (handlerEntry s) := by
  rw [handlerStep, h]

theorem handlerStep_off_air {s : State} (h : s.linkState = .idle ∨ s.linkState = .fault) :
    handlerStep s = handlerReturn (handlerEntry s) := by
  rcases h with h | h <;> rw [handlerStep, h]

/-! ### The handler's end -/

/-- R251: what the Handler leaves alone: the results, the queue, the poll counter and INIT_DONE. -/
def State.hostSide (s : State) : List Exchange × Memory × Byte × Byte × Bool :=
  (s.hostLog, s.txq, s.txqCount, s.waitCnt, s.initDone)

theorem Write.handler_hostSide {u v : State} (h : Write .handler u v) : v.hostSide = u.hostSide := by
  cases h <;> rfl

theorem handlerStep_hostSide (s : State) : (handlerStep s).hostSide = s.hostSide :=
  (handlerStep_ends s).keeps fun _ _ hw => hw.handler_hostSide

/-- R171, R251: the handler has ended, the interrupt disabled. -/
def Disarmed (t : State) : Prop :=
  t.hung = true ∨ (t.irqEn = false ∧ (t.linkState = .idle ∨ t.linkState = .fault))

theorem parserFault_disarmed (c : FaultCause) (s : State) : Disarmed (parserFault c s) := by
  unfold parserFault
  split <;> exact .inr ⟨rfl, .inr rfl⟩

theorem deliver_linkState (n : Nat) (s : State) : (deliver n s).linkState = s.linkState := by
  rcases deliver_cases n s with ⟨-, h⟩ | ⟨-, h⟩ <;> rw [h] <;> rfl

theorem handlerListening_disarmed (s : State) : Disarmed (handlerListening s) := by
  rcases handlerListening_cases s with
    ⟨u, -, ⟨-, h⟩ | ⟨c, -, h⟩⟩ | ⟨u, bs, hu, -, -, h | h⟩ <;> rw [h]
  · exact .inl rfl
  · exact parserFault_disarmed c u
  · exact parserFault_disarmed _ _
  · exact .inr ⟨rfl, .inl ((deliver_linkState _ (storeFrame bs u)).trans hu.linkState)⟩

theorem handlerListening_irqPend {s : State} (hl : s.linkState = .listening) (hp : s.irqPend = false) :
    (handlerListening s).irqPend = false :=
  (handlerListening_ends hl .refl).preserves (P := fun u => u.irqPend = false)
    (fun _ _ hw => hw.irqPend nofun) hp (fun _ _ h => h) (fun _ h => h)

theorem handlerStep_disarmed (s : State) :
    (handlerStep s).irqPend = false ∧ Disarmed (handlerStep s) := by
  cases hl : s.linkState with
  | listening =>
    rw [handlerStep_listening hl]
    exact ⟨handlerListening_irqPend (s := handlerEntry s) hl rfl, handlerListening_disarmed _⟩
  | transmitting => rw [handlerStep_transmitting hl]; exact ⟨rfl, .inr ⟨rfl, .inl rfl⟩⟩
  | idle => rw [handlerStep_off_air (.inl hl)]; exact ⟨rfl, .inr ⟨rfl, .inl hl⟩⟩
  | fault => rw [handlerStep_off_air (.inr hl)]; exact ⟨rfl, .inr ⟨rfl, .inr hl⟩⟩

/-! ### The obligations -/

/-- Settles O26, by INIT's sequence in time. -/
theorem initProgramsTheRadioAndClearsTheFlags : Obligations.InitProgramsTheRadioAndClearsTheFlags :=
  fun _ hw h => execInit_pass hw h

/-- Settles O27: the state after INIT does not read the flags that it resets. -/
theorem initErasesTheFaultHistory : Obligations.InitErasesTheFaultHistory := by
  intro s s' t t' hw h hs' ht ht'
  have hcfg : s'.cfg = s.cfg := by rw [hs']
  have hpolls : s'.pollsPass s'.initWaits := by rw [hs']; exact h
  have hafter : s.afterInit = s'.afterInit := by rw [hs']; rfl
  cases (execInit_pass hw h).symm.trans ht
  cases (execInit_pass (hcfg ▸ hw) hpolls).symm.trans ht'
  exact ⟨hafter, rfl⟩

/-- Settles O28, by the enter-RX strobe in time. -/
theorem enterListenArmsReception : Obligations.EnterListenArmsReception := by
  intro s hi hl h
  refine ⟨opWaits (s.settles .srx 0), ?_⟩
  have armed : (arm s).pollsPass 7 := h
  rw [exec, execEnterListen, ifInitialized_of_initDone hi, if_pos hl, enterListening,
    legalStrobe_op_pass .srx rfl armed le_rfl]
  rfl

/-- Settles O29, by the two strobes that leave Listening in time. -/
theorem exitListenIdlesAndFlushes : Obligations.ExitListenIdlesAndFlushes := by
  intro s hi hl h
  obtain ⟨w, -, hexit⟩ := exitListening_pass h le_rfl
  refine ⟨w, ?_⟩
  rw [exec, execExitListen, ifInitialized_of_initDone hi, if_pos hl, hexit]
  rfl

/-- Settles O31, by the no-op strobe in time and the three judgements of its status byte. -/
theorem waitIdlePollCountsUnsuccessfulPolls : Obligations.WaitIdlePollCountsUnsuccessfulPolls := by
  intro s hi h st u
  have polled : exec .waitIdlePoll s = .next (endCommand .waitIdlePoll (judgePoll st u)) := by
    rw [exec, execWaitIdlePoll, ifInitialized_of_initDone hi, legalStrobe_plain_pass .snop rfl h le_rfl]
    rfl
  rw [polled]
  refine ⟨fun hidle => ?_, fun hbusy hcap => ?_, fun hbusy hcap => ?_⟩
  · rw [judgePoll_idle (s := u) hidle]; rfl
  · rw [judgePoll_timeout (s := u) hbusy hcap]; rfl
  · rw [judgePoll_notIdle (s := u) hbusy hcap]; rfl

/-- Settles O47, by the handler's ends and the writes it does not make. -/
theorem handlerDisarmsItself : Obligations.HandlerDisarmsItself := by
  intro s t
  obtain ⟨hpend, hend⟩ := handlerStep_disarmed s
  have hside := handlerStep_hostSide s
  simp only [State.hostSide, Prod.mk.injEq] at hside
  exact ⟨hpend, hend, hside⟩

/-- Settles O56: the commands that use the bus while Transmitting are INIT and WAIT_IDLE_POLL. -/
theorem noTxFifoWriteWhileTransmitting : Obligations.NoTxFifoWriteWhileTransmitting := by
  intro i s t r hsingle hpower hp hl h
  obtain ⟨-, new, hnew, hspares⟩ := execHost_transmitting ⟨hsingle, hpower⟩ hp hl h
  exact ⟨new, hnew, fun ds hmem => hspares _ hmem ds rfl⟩

/-- Settles O24, by the check that comes first in the six commands, and the results of the others. -/
theorem commandsBeforeInitDoNothing : Obligations.CommandsBeforeInitDoNothing := by
  intro s ds hi
  refine ⟨fun i hmem => ?_, fun op i hmem => ?_⟩
  · simp only [List.mem_cons, List.not_mem_nil, or_false] at hmem
    rcases hmem with rfl | rfl | rfl | rfl | rfl | rfl <;>
      simp only [exec, execEnterListen, execExitListen, execBeginTx, execSendNextFull, execSendNextForce,
        execWaitIdlePoll, ifInitialized_of_not_initDone hi]
  · simp only [List.mem_cons, List.not_mem_nil, or_false] at hmem
    rcases hmem with rfl | rfl | rfl | rfl
    · exact ⟨_, rfl, execInit_noInitCheck rfl⟩
    · exact execAppend_noInitCheck ds s
    · exact ⟨_, rfl, reply_noInitCheck _ rfl nofun⟩
    · exact ⟨_, rfl, reply_noInitCheck _ rfl nofun⟩

/-- Settles O25, by each command's check after INIT. -/
theorem illegalCommandsDoNothing : Obligations.IllegalCommandsDoNothing :=
  fun _ ds hi => ⟨execEnterListen_illegal hi, execExitListen_illegal hi, execBeginTx_illegal ds hi,
    execBeginTx_badLength hi⟩

/-- Settles O42, by the handler's dispatch on LINK_STATE and clause (a) of the invariant. -/
theorem handlerOutsideListening : Obligations.HandlerOutsideListening := by
  intro s
  refine ⟨fun hl => ?_, fun hl => ⟨?_, fun hinv hh => ?_⟩⟩
  · rw [handlerStep_transmitting hl]; rfl
  · rw [handlerStep_off_air hl]; rfl
  · rw [Bool.eq_false_iff]
    intro hen
    have hair := hinv.armed hh hen
    rcases hl with hl | hl <;> simp [hl] at hair

end Sys2Proof.Machine

/-! SUPPORT. The handler's step in Listening from its entry to the parser's end, by what the radio answers: busy,
a count out of range, a frame read whole, or a first wait that fails. Proofs of the obligations of
42_receive_drain. -/

namespace Sys2Proof.Machine

/-! ### The parser up to the count (R191 to R193) -/

/-- R191, R250: the state in which the parser issues its first transaction. -/
def State.parsing (s : State) : State := setLink .idle (handlerEntry s)

/-- R191: the parser's sequence after its two register writes. -/
theorem handlerStep_parses {s : State} (hl : s.linkState = .listening) :
    handlerStep s = endDrain ((legalStrobe .snop s.parsing).andThen fun st u =>
      (checkIdle st u).andThen fun _ u =>
      (busRegRead u.cfg.radio.rxBytesAddr u).andThen fun n u => checkCount n.toNat u) := by
  rw [handlerStep_listening hl]
  rfl

theorem checkIdle_idle {s : State} {st : Byte} (h : s.seesIdle st) : checkIdle st s = .ok () s := by
  rw [checkIdle, if_pos ((reportsIdle_iff s st).2 h)]

theorem checkIdle_busy {s : State} {st : Byte} (h : ¬ s.seesIdle st) :
    checkIdle st s = .raised .stateMismatch s := by
  rw [checkIdle, if_neg (by rwa [reportsIdle_iff])]

/-- R192: the radio does not report Idle. -/
theorem handlerStep_busy {s : State} (hl : s.linkState = .listening) (h : s.pollsPass 1)
    (hbusy : ¬ s.seesIdle (s.statusDraw 0)) :
    handlerStep s = parserFault .stateMismatch (s.parsing.busAfter [s.plainTrace .snop 0] 1 0 0 1) := by
  have hp : s.parsing.pollsPass 1 := h
  rw [handlerStep_parses hl, legalStrobe_plain_pass .snop rfl hp le_rfl, Flow.andThen_ok,
    checkIdle_busy (s := s.parsing.busAfter _ _ _ _ _) (st := s.parsing.statusDraw 0) hbusy,
    Flow.andThen_raised]
  rfl

/-- R193: the count, of a radio that reports Idle. -/
theorem handlerStep_counts {s : State} (hl : s.linkState = .listening) (h : s.pollsPass 3)
    (hidle : s.seesIdle (s.statusDraw 0)) :
    handlerStep s =
      endDrain (checkCount (s.dataDraw 0).toNat (s.parsing.busAfter s.parserTrace 1 1 0 3)) := by
  have hp : s.parsing.pollsPass 3 := h
  rw [handlerStep_parses hl, legalStrobe_plain_pass .snop rfl hp (by omega), Flow.andThen_ok,
    checkIdle_idle (s := s.parsing.busAfter _ _ _ _ _) (st := s.parsing.statusDraw 0) hidle,
    Flow.andThen_ok,
    busRegRead_pass (n := 2) _ (hp.after _ _ _ _ _ _ (by omega)) le_rfl, Flow.andThen_ok,
    busAfter_busAfter, busAfter_dataDraw]
  rfl

section
variable {s : State} {n : Nat}

theorem checkCount_short (h : n < 4) : checkCount n s = .raised .shortFrame s := if_pos h

theorem checkCount_overflow (h4 : 4 ≤ n) (hcap : s.cfg.rxCap < n) :
    checkCount n s = .raised .frameOverflow s := by
  rw [checkCount, if_neg h4.not_gt, if_pos hcap]

theorem checkCount_fits (h4 : 4 ≤ n) (hcap : n ≤ s.cfg.rxCap) : checkCount n s = takeFrame n s := by
  rw [checkCount, if_neg h4.not_gt, if_neg hcap.not_gt]

/-! ### The frame's fields (R190, R195, R196) -/

@[simp] theorem dataBytes_length (k : Nat) : (s.dataBytes k n).length = n := by simp [State.dataBytes]

theorem dataBytes_getElem? {i : Nat} (k : Nat) (h : i < n) :
    (s.dataBytes k n)[i]? = some (s.dataDraw (k + i)) := by
  simp [State.dataBytes, h]

theorem byteAt_dataBytes {i : Nat} (k : Nat) (h : i < n) :
    byteAt (s.dataBytes k n) i = s.dataDraw (k + i) := by
  rw [byteAt, List.getD_eq_getElem?_getD, dataBytes_getElem? k h, Option.getD_some]

/-- R190: the status byte is the last of the frame. -/
theorem rxStatus_dataBytes (h : n ≠ 0) : rxStatus (s.dataBytes 1 n) n = s.dataDraw n := by
  rw [rxStatus, byteAt_dataBytes 1 (by omega), show 1 + (n - 1) = n by omega]

/-- R18: a slice that lies inside the bytes. -/
theorem slice_dataBytes {i j : Nat} (k : Nat) (hj : j < n) :
    slice (s.dataBytes k n) i j = s.dataBytes (k + i) (j + 1 - i) := by
  apply List.ext_getElem?
  intro m
  rw [slice, List.getElem?_take, List.getElem?_drop]
  by_cases hm : m < j + 1 - i
  · rw [if_pos hm, dataBytes_getElem? k (by omega), dataBytes_getElem? _ hm, Nat.add_assoc]
  · rw [if_neg hm, List.getElem?_eq_none (by rw [dataBytes_length]; omega)]

/-! ### The frame read (R194) -/

/-- R194: the frame of n bytes is in RXBUF, every transaction of the parser made. -/
def State.frameRead (s : State) (n : Nat) : State :=
  storeFrame (s.dataBytes 1 n) (s.parsing.busAfter (s.parserTrace ++
    [.read (s.cfg.radio.burstReadByte s.cfg.radio.fifoAddr) (s.dataBytes 1 n)]) 1 (n + 1) 0 (n + 4))

theorem rxFrame_frameRead : rxFrame (s.frameRead n) n = s.dataBytes 1 n := by
  have h := memRead_memWrite s.rxbuf Config.unspecRxbuf 0 (s.dataBytes 1 n)
  rwa [dataBytes_length] at h

/-- R194: a memory that is RXBUF after the frame is read holds the frame below n, and what RXBUF held
before from n on. -/
theorem rxbuf_of_frameRead {m : Memory} (hm : m = (s.frameRead n).rxbuf) :
    (∀ k < n, memGet? m k = some (s.dataDraw (k + 1))) ∧
      ∀ k, n ≤ k → memGet? m k = memGet? s.rxbuf k := by
  have hget (k : Nat) : memGet? m k = if 0 ≤ k ∧ k < 0 + (s.dataBytes 1 n).length
      then (s.dataBytes 1 n)[k - 0]? else memGet? s.rxbuf k :=
    hm ▸ memGet?_memWrite s.rxbuf 0 k (s.dataBytes 1 n)
  simp only [dataBytes_length, Nat.zero_add, Nat.sub_zero, Nat.zero_le, true_and] at hget
  refine ⟨fun k hk => ?_, fun k hk => ?_⟩
  · rw [hget, if_pos hk, dataBytes_getElem? 1 hk, Nat.add_comm]
  · rw [hget, if_neg hk.not_gt]

/-- R194: the burst read follows the two transactions before it. -/
theorem takeFrame_pass (h : s.pollsPass (n + 4)) (hn : n ≠ 0) :
    takeFrame n (s.parsing.busAfter s.parserTrace 1 1 0 3) =
      if rxCrcOk (rxFrame (s.frameRead n) n) n then .ok () (deliver n (s.frameRead n))
      else .raised .crcFailure (s.frameRead n) := by
  have hp : s.parsing.pollsPass (n + 4) := h
  have hbytes : (List.range n).map (s.parsing.busAfter s.parserTrace 1 1 0 3).dataDraw =
      s.dataBytes 1 n := List.map_congr_left fun i _ => busAfter_dataDraw _ _ _ _ _ _ i
  rw [takeFrame, busBurstRead_pass (k := n + 1) _ n hn (hp.after _ _ _ _ _ _ (by omega)) le_rfl,
    Flow.andThen_ok, hbytes, busAfter_busAfter, Nat.add_comm 1 n, Nat.add_comm 3 (n + 1)]
  rfl

/-- R195: the CRC-ok bit of the frame read. -/
theorem rxCrcOk_frameRead (hn : n ≠ 0) :
    rxCrcOk (rxFrame (s.frameRead n) n) n = (s.dataDraw n).getLsbD 7 := by
  rw [rxFrame_frameRead, rxCrcOk, rxStatus_dataBytes hn]

/-- R194, R195: a frame whose count passes the checks is read, then delivered or discarded by its CRC. -/
theorem handlerStep_frame (hl : s.linkState = .listening) (hidle : s.seesIdle (s.statusDraw 0))
    (hn : (s.dataDraw 0).toNat = n) (h4 : 4 ≤ n) (hcap : n ≤ s.cfg.rxCap) (h : s.pollsPass (n + 4)) :
    handlerStep s = if (s.dataDraw n).getLsbD 7 then handlerReturn (deliver n (s.frameRead n))
      else parserFault .crcFailure (s.frameRead n) := by
  rw [handlerStep_counts hl (h.mono (by omega)) hidle, hn,
    checkCount_fits (s := s.parsing.busAfter _ _ _ _ _) h4 hcap, takeFrame_pass h (by omega),
    rxCrcOk_frameRead (by omega), apply_ite endDrain]
  rfl

/-- R196, R197: the delivery of the frame read, or its discard. -/
theorem deliver_frameRead (h4 : 4 ≤ n) : deliver n (s.frameRead n) =
    { s.frameRead n with
      roomAnswers := s.roomAnswers.drop 1
      lastRx := if n - 3 ≤ s.roomDraw 0 then some .ok else some .sinkOverflow
      sinkLog := if n - 3 ≤ s.roomDraw 0 then s.sinkLog ++
          [Delivery.mk (s.dataBytes 2 (n - 3)) (s.dataDraw (n - 1)) (s.dataDraw n &&& 0x7F)]
        else s.sinkLog } := by
  have hroom : (s.frameRead n).roomDraw 0 = s.roomDraw 0 := rfl
  rcases deliver_cases n (s.frameRead n) with ⟨hfull, h⟩ | ⟨hfree, h⟩
  · rw [hroom] at hfull
    rw [h, if_neg hfull.not_ge, if_neg hfull.not_ge]
    rfl
  · rw [hroom] at hfree
    have hpay : rxPayload (s.dataBytes 1 n) n = s.dataBytes 2 (n - 3) := slice_dataBytes 1 (by omega)
    have hrssi : rxRssi (s.dataBytes 1 n) n = s.dataDraw (n - 1) := by
      rw [rxRssi, byteAt_dataBytes 1 (by omega), show 1 + (n - 2) = n - 1 by omega]
    have hlqi : rxLqi (s.dataBytes 1 n) n = s.dataDraw n &&& 0x7F := by
      rw [rxLqi, rxStatus_dataBytes (by omega)]
    rw [h, rxFrame_frameRead, hpay, hrssi, hlqi, if_pos hfree, if_pos hfree]
    rfl

end

/-! ### The obligations -/

/-- Settles O43, by the frame read and its delivery. -/
theorem goodFrameIsDeliveredWholeOrDiscarded : Obligations.GoodFrameIsDeliveredWholeOrDiscarded := by
  intro s hl hidle n h4 hcap h hcrc t
  have ht : t = handlerReturn (deliver n (s.frameRead n)) :=
    (handlerStep_frame hl hidle rfl h4 hcap h).trans (if_pos hcrc)
  rw [deliver_frameRead h4] at ht
  have hbuf : t.rxbuf = (s.frameRead n).rxbuf := by rw [ht]; rfl
  obtain ⟨hframe, hrest⟩ := rxbuf_of_frameRead hbuf
  exact ⟨hframe, hrest, by rw [hbuf, ht]; rfl⟩

/-- Settles O44, by the parser's checks in their order. -/
theorem badStateOrCountFaultsWithoutConsumingData :
    Obligations.BadStateOrCountFaultsWithoutConsumingData := by
  intro s hl h st n u
  refine ⟨fun hbusy => ?_, fun hidle hshort => ?_, fun hidle h4 hlong => ?_⟩
  · rw [handlerStep_busy hl (h.mono (by omega)) hbusy]; rfl
  · rw [handlerStep_counts hl h hidle, checkCount_short hshort]; rfl
  · rw [handlerStep_counts hl h hidle, checkCount_overflow (s := s.parsing.busAfter _ _ _ _ _) h4 hlong]
    rfl

/-- Settles O45, by the frame read, whose CRC-ok bit is clear. -/
theorem crcFailureDiscardsTheFrame : Obligations.CrcFailureDiscardsTheFrame := by
  intro s hl hidle n h4 hcap h hcrc t
  have ht : t = parserFault .crcFailure (s.frameRead n) :=
    (handlerStep_frame hl hidle rfl h4 hcap h).trans (if_neg (Bool.eq_false_iff.1 hcrc))
  have hbuf : t.rxbuf = (s.frameRead n).rxbuf := by rw [ht]; rfl
  obtain ⟨hframe, hrest⟩ := rxbuf_of_frameRead hbuf
  exact ⟨by rw [ht]; rfl, by rw [ht]; rfl, hframe, hrest, by rw [hbuf, ht]; rfl⟩

/-- Settles O46, by the no-op strobe cut off at its first wait. -/
theorem busTimeoutInTheParserFaults : Obligations.BusTimeoutInTheParserFaults := by
  intro s c hl hcap hlate
  have hcut : s.parsing.waitFails := waitFails_of_cap hcap hlate
  have hcap' : (s.parsing.busAfter [] 0 0 0 1).cfg.busWaitCap = some c := hcap
  rw [handlerStep_parses hl, legalStrobe_cut .snop hcut, Flow.cut_of_cap hcap', Flow.andThen_raised]
  rfl

end Sys2Proof.Machine

/-! SUPPORT. APPEND by the room in the queue, and SEND_NEXT by what it picks: the first message, the whole queue
or nothing. Proofs of the obligations of 43_transmit_queue. -/

namespace Sys2Proof.Machine

/-! ### APPEND (R210) -/

/-- R210: bytes that exceed the queue's capacity are turned away. -/
theorem execAppend_full {s : State} {ds : List Byte} (h : s.cfg.txqCap < s.txqCount.toNat + ds.length) :
    execAppend ds s = .next (reply (.append ds) .queueFull 0 s) := by
  rw [execAppend, if_pos]
  rwa [queueLacks_iff]

/-- R210: APPEND writes no byte of TXQ but those behind the queue's that it stores. -/
theorem memGet?_enqueue_outside {s : State} {ds : List Byte} {k : Nat}
    (hk : k < s.txqCount.toNat ∨ s.txqCount.toNat + ds.length ≤ k) :
    memGet? (enqueue ds s).txq k = memGet? s.txq k := by
  rw [enqueue_txq, memGet?_memWrite, if_neg (by omega)]

/-! ### SEND_NEXT (R212 to R216) -/

/-- R212, R213: the bytes sent are the first of the queue. -/
theorem memRead_queue_prefix {s : State} {frame post : List Byte} (hq : queueBytes s = frame ++ post) :
    memRead Config.unspecTxq s.txq 0 frame.length = frame := by
  have hcount : s.txqCount.toNat = frame.length + post.length := by
    rw [← queueBytes_length, hq, List.length_append]
  rw [queueBytes, hcount, memRead_add] at hq
  exact List.append_inj_left hq (memRead_length _ _ _ _)

/-- R212: SEND_NEXT.FULL from a queue with a terminator. -/
theorem execSendNextFull_pass {s : State} {pre post : List Byte} {n : Nat} (hinit : s.initDone = true)
    (hl : s.linkState ≠ .transmitting) (hc : s.txqCount.toNat ≤ s.cfg.txqCap)
    (hq : queueBytes s = pre ++ [s.cfg.terminator] ++ post) (hpre : s.cfg.terminator ∉ pre)
    (h : s.pollsPass n) (hn : pre.length + 23 ≤ n) :
    ∃ w, execSendNextFull s = .next (reply .sendNextFull .ok (BitVec.ofNat 32 (pre.length + 1))
      { (compact (pre.length + 1) s).busAfter (s.txTrace (pre ++ [s.cfg.terminator]))
          s.txStrobes s.txStrobes s.txStrobes w with
        irqPend := false, irqEn := true, linkState := .transmitting }) := by
  have hne : s.txqCount ≠ 0 := fun hz => by
    have hlen := congrArg List.length hq
    simp [hz] at hlen
  have hframe := memRead_queue_prefix hq
  rw [List.length_append, List.length_singleton] at hframe
  have hpick : (scan s).map (· + 1) = some (pre.length + 1) := by
    rw [scan_eq_length hq hpre, Option.map_some]
  obtain ⟨w, hsend⟩ := sendNext_pass (cmd := .sendNextFull) (pick := fun s => (scan s).map (· + 1))
    hl hne hc hpick h (by omega)
  rw [hframe] at hsend
  exact ⟨w, (ifInitialized_of_initDone hinit).trans hsend⟩

/-- R212, R213, R217: both forms of SEND_NEXT, while Transmitting or from an empty queue. -/
theorem sendNext_transmitting_or_empty {cmd : Instr} {pick : State → Option Nat} {s : State}
    (h : s.linkState = .transmitting ∨ s.txqCount = 0) :
    sendNext cmd pick s = .next (reply cmd .ok 0 s) := by
  unfold sendNext
  split
  · rfl
  · next hl => rw [if_pos (h.resolve_left hl)]

/-- R212: nothing picked to be sent. -/
theorem sendNext_none {cmd : Instr} {pick : State → Option Nat} {s : State}
    (hc : s.txqCount.toNat ≤ s.cfg.txqCap) (hpick : pick s = none) :
    sendNext cmd pick s = .next (reply cmd .ok 0 s) := by
  by_cases hstop : s.linkState = .transmitting ∨ s.txqCount = 0
  · exact sendNext_transmitting_or_empty hstop
  · obtain ⟨hl, hne⟩ := not_or.1 hstop
    rw [sendNext, if_neg hl, if_neg hne, if_pos ((countInQueue_iff s).2 hc), hpick]

/-- R214: no terminator is found. -/
theorem scan_eq_none {s : State} (h : s.cfg.terminator ∉ queueBytes s) : scan s = none := by
  rw [scan, List.findIdx?_eq_none_iff]
  intro b hb
  rw [beq_eq_false_iff_ne]
  rintro rfl
  exact h hb

/-! ### The obligations -/

/-- Settles O36, by the room in the queue. -/
theorem appendIsAllOrNothing : Obligations.AppendIsAllOrNothing := by
  refine fun s ds hcap => ⟨execAppend_full, fun hfits => ?_⟩
  have hbyte : s.txqCount.toNat + ds.length ≤ 255 := hfits.trans hcap
  exact ⟨_, execAppend_fits hfits, enqueue_bytes hbyte, enqueue_count hbyte,
    fun _ => memGet?_enqueue_outside, rfl⟩

/-- Settles O37, by the terminator found and the queue compacted behind it. -/
theorem sendNextFullSendsTheFirstMessage : Obligations.SendNextFullSendsTheFirstMessage := by
  intro s pre post hinit hl hc hq hpre hpolls
  obtain ⟨w, hsend⟩ := execSendNextFull_pass hinit hl hc hq hpre hpolls le_rfl
  have hrest : queueBytes (compact (pre.length + 1) s) = post := compact_message hq
  have hcount : (compact (pre.length + 1) s).txqCount.toNat = post.length := by
    rw [← queueBytes_length, hrest]
  exact ⟨_, w, hsend, hrest, hcount, rfl⟩

/-- Settles O38, by a transmission of the whole queue, of which `Compact` leaves nothing. -/
theorem sendNextForceSendsTheWholeQueue : Obligations.SendNextForceSendsTheWholeQueue := by
  intro s hinit hl hne hc hpolls
  obtain ⟨w, hsend⟩ := execSendNextForce_pass hinit hl hne hc hpolls le_rfl
  rw [compact_all, BitVec.ofNat_toNat] at hsend
  exact ⟨w, hsend⟩

/-- Settles O39, by the checks that both forms make before they send, and the scan that finds no terminator. -/
theorem sendNextWithNothingToSendDoesNothing : Obligations.SendNextWithNothingToSendDoesNothing := by
  refine fun s hinit => ⟨fun hstop => ⟨?_, ?_⟩, fun hc hterm => ?_⟩
  · exact (ifInitialized_of_initDone hinit).trans (sendNext_transmitting_or_empty hstop)
  · exact (ifInitialized_of_initDone hinit).trans (sendNext_transmitting_or_empty hstop)
  · have hpick : (scan s).map (· + 1) = none := by rw [scan_eq_none hterm, Option.map_none]
    exact (ifInitialized_of_initDone hinit).trans (sendNext_none hc hpick)

end Sys2Proof.Machine

/-! SUPPORT. The fault action by whether a fault is already recorded, and the ends of a host command and of the
handler's drain that a fault brings about. Proofs of the obligations of 60_exceptions. -/

namespace Sys2Proof.Machine

/-! ### The fault action (R240) -/

/-- R240: the first fault since INIT records its cause. -/
theorem faultAction_first {s : State} (c : FaultCause) (h : s.fault = false) : faultAction c s =
    { s with faultCause := some c, fault := true, irqEn := false, linkState := .fault } := by
  rw [faultAction, h, if_neg Bool.false_ne_true]

/-- R240: a later fault keeps the recorded cause. -/
theorem faultAction_later {s : State} (c : FaultCause) (h : s.fault = true) :
    faultAction c s = { s with irqEn := false, linkState := .fault } := by
  rw [faultAction, if_pos h, ← h]

/-! ### The ends of a faulted sequence (R241) -/

/-- R241: a fault inside a host command, whose cause names a result. -/
theorem endCommand_raised (cmd : Instr) {c : FaultCause} {code : ResultCode} (s : State)
    (h : resultOfCause c = some code) : endCommand cmd (.raised c s) = reply cmd code 0 (faultAction c s) := by
  rw [endCommand, commandFault, h]

/-- R199, R241: the parser's fault returns nothing to the host. -/
@[simp] theorem parserFault_hostLog (c : FaultCause) (s : State) : (parserFault c s).hostLog = s.hostLog := by
  unfold parserFault
  split
  · rw [faultAction_hostLog, setLastRx_hostLog]
  · rw [faultAction_hostLog]

/-! ### The obligations -/

/-- Settles O21, by the two cases of FAULT and the ends of a faulted sequence. -/
theorem faultActionKeepsTheFirstCause : Obligations.FaultActionKeepsTheFirstCause :=
  fun c s => ⟨faultAction_first c, faultAction_later c, Flow.andThen_raised c s,
    fun cmd => ⟨endCommand_raised cmd s rfl, endCommand_raised cmd s rfl⟩, parserFault_hostLog c s⟩

end Sys2Proof.Machine
